-- ==== Sys2Proof/Word.lean ====
section
/-! DEFINITION. The word types of CERC: the widths rules R13 and R14 of spec/00_scope.md fix.
A bit vector carries no sign of its own; a formula says at each operator whether it reads the
bits as u or as s (rule R15). -/

namespace Sys2Proof

/-- u8, s8: a register byte, an opcode, a field code (R13, R14). -/
abbrev Byte := BitVec 8

/-- u16, s16: a calibration coefficient (R21). -/
abbrev Half := BitVec 16

/-- u32, s32: the port IX, TFINE and the numeric latches (R13, R32). -/
abbrev Word := BitVec 32

/-- s64: the intermediates of the 64-bit pressure path (R13, R191). -/
abbrev Dword := BitVec 64

end Sys2Proof
end

