-- ==== Sys2Proof/Config.lean ====
section
/-! DEFINITION. The implementation parameters of CERC (spec/00_scope.md rules R6 to R12), as data
that a state carries unchanged, so that every statement about all states is a statement about
every build. The defaults are the spec's (DESIGN CHOICE, safe: assumption log, entry 3). -/

namespace Sys2Proof

/-- PRESS_VARIANTS: which pressure paths are built in (R6). -/
inductive PressVariants where
  | both
  | p32Only
  | p64Only
  deriving DecidableEq, Repr

/-- TEMP_SCALING: the meaning of a power-of-two scaling step of COMP_T (R7). -/
inductive TempScaling where
  | floor
  | trunc
  deriving DecidableEq, Repr

/-- P64_RESCALE and H_RESCALE range over the total functions from u32 to u32 (R8, R9).
`exactFloor` is the spec's default; `other n` is any other function, kept as plain data by its
number, its values being `Config.otherRescale n` (DESIGN CHOICE, safe: assumption log, entry 4). -/
inductive Rescale where
  | exactFloor
  | other (n : Nat)
  deriving DecidableEq, Repr

/-- FLOAT_FMT: the format of the FLT_* results (R10). N2 of spec/91_not_in_source.md names single
and double as the widths left open (DEDUCED, unsafe for a build with another format: assumption log,
entry 5). -/
inductive FloatFmt where
  | binary32
  | binary64
  deriving DecidableEq, Repr

/-- H1_INDEX: the byte of calibration block A that holds H1 (R11). -/
inductive H1Index where
  | i25
  | i24
  deriving DecidableEq, Repr

/-- The parameters of one build of CERC (R6 to R12). -/
structure Config where
  press : PressVariants
  tempScaling : TempScaling
  p64Rescale : Rescale
  hRescale : Rescale
  floatFmt : FloatFmt
  h1Index : H1Index
  h45SignExtend : Bool
  deriving DecidableEq, Repr

/-- The spec's defaults (R6 to R12). -/
def Config.default : Config where
  press := .both
  tempScaling := .floor
  p64Rescale := .exactFloor
  hRescale := .exactFloor
  floatFmt := .binary32
  h1Index := .i25
  h45SignExtend := false

/-- Every rescaling function other than the default, by number: uninterpreted, so that a statement
about it holds for every total function from u32 to u32 (R8, R9). -/
opaque Config.otherRescale : Nat → Word → Word

end Sys2Proof
end

