-- ==== Sys2Proof/Machine/State.lean ====
section
/-! DEFINITION. The state of CERC (spec/10_state.md rules R20 to R38), with what the model adds to
it to run a host: the parameters, the sampled ports, the host's coming events and the run index.
A latch or register that may hold ⊥ is an Option, as rule R29 asks. -/

namespace Sys2Proof.Machine

/-- The 18 coefficient registers (R21). The signedness stated is how the formulas read them. One
record, since all 18 are written together (DEDUCED, safe: assumption log, entry 10). -/
structure Cal where
  /-- u16 -/
  t1 : Half
  /-- s16, as every coefficient below but p1, h1, h3 and h6 -/
  t2 : Half
  t3 : Half
  /-- u16 -/
  p1 : Half
  p2 : Half
  p3 : Half
  p4 : Half
  p5 : Half
  p6 : Half
  p7 : Half
  p8 : Half
  p9 : Half
  /-- u8 -/
  h1 : Byte
  h2 : Half
  /-- u8 -/
  h3 : Byte
  h4 : Half
  h5 : Half
  /-- s8 -/
  h6 : Byte
  deriving DecidableEq, Repr

/-- STATUS when it is not ⊥ (R30); a name, not a number (DEDUCED, safe: assumption log, entry
14). -/
inductive Status where
  | ok
  | paramError
  deriving DecidableEq, Repr

/-- The fault kinds of rule R253 but NONE. -/
inductive FaultKind where
  | illegalCmd
  | calUnset
  | tfineUnset
  | calReload
  deriving DecidableEq, Repr

/-- A value of FLOAT_FMT, by its IEEE 754 bits (R10, R32). -/
inductive FloatVal where
  | b32 (bits : BitVec 32)
  | b64 (bits : BitVec 64)
  deriving DecidableEq, Repr

/-- The result latches, `none` standing for ⊥ (R32). -/
structure Latches where
  y0 : Option Word
  y1 : Option Word
  y2 : Option Word
  yb0 : Option Byte
  yb1 : Option Byte
  yb2 : Option Byte
  /-- the write-needed verdict, true for 1 -/
  yw : Option Bool
  /-- the recognised-code bits -/
  yv : Option (BitVec 3)
  yf : Option FloatVal
  deriving DecidableEq, Repr

/-- Every result latch ⊥ (R33, R38). -/
def Latches.bottom : Latches where
  y0 := none
  y1 := none
  y2 := none
  yb0 := none
  yb1 := none
  yb2 := none
  yw := none
  yv := none
  yf := none

/-- The port ICFG: the seven field codes of ENC_CONFIG, each u8 (R31, R121). -/
structure Icfg where
  osrsT : Byte
  osrsP : Byte
  osrsH : Byte
  mode : Byte
  tSb : Byte
  filter : Byte
  spi3w : Byte
  deriving DecidableEq, Repr

/-- The operand ports, as the host presents them with one command (R31). -/
structure Ports where
  cmd : Byte
  ix : Word
  ir : Byte
  iv : Byte
  ib : Vector Byte 26
  ic : Vector Byte 7
  icfg : Icfg
  deriving DecidableEq, Repr

/-- What the host can do to CERC: present a command with its operands (R2), or assert reset
between two commands (R280). -/
inductive HostEvent where
  | command (p : Ports)
  | reset
  deriving DecidableEq, Repr

/-- Why the machine stops. -/
inductive Fault where
  /-- Raised by every command presented to a halted CERC (R28, R256): there is no step until
  reset. The kind is that of FAULT. Safe: the spec gives no successor (DEDUCED: assumption log,
  entry 6). -/
  | halted (kind : FaultKind)
  deriving DecidableEq, Repr

/-- Why no step is made. -/
inductive Refusal where
  /-- Raised by an arm of exec whose command has no meaning yet. Safe. -/
  | notModelled (mnemonic : String)
  /-- Raised by a step when the host presents nothing: CERC makes one step per command and none
  without one (R5, R67). Safe. -/
  | noCommand
  deriving DecidableEq, Repr

/-- The state. The first seven fields are the architectural state of rule R20; `params`, `ports`,
`host` and `index` are the model's own (DESIGN CHOICE: assumption log, entries 1 to 3). -/
structure State where
  /-- CAL; `none` when every CAL register holds ⊥ (R21 to R23) -/
  cal : Option Cal
  /-- CAL_VALID (R22) -/
  calValid : Bool
  /-- TFINE, read as s32 (R24) -/
  tfine : Option Word
  /-- TFINE_VALID (R25) -/
  tfineValid : Bool
  /-- STATUS (R30) -/
  status : Option Status
  /-- Y0, Y1, Y2, YB0, YB1, YB2, YW, YV, YF (R32) -/
  latch : Latches
  /-- FAULT; `none` is NONE (R27) -/
  fault : Option FaultKind
  /-- the parameters this CERC was built with (R6 to R12) -/
  params : Config
  /-- the ports as CERC sampled them for the command it executes (R31) -/
  ports : Ports
  /-- what the host does next, first event first (R2, R280) -/
  host : List HostEvent
  /-- the run index: completed commands of the run (R36) -/
  index : Nat
  deriving DecidableEq, Repr

/-- Ports with every bit 0: what `State.reset` carries before anything is sampled; no command
reads it, since a step samples the ports first (DESIGN CHOICE, unsafe for a claim about exec at
State.reset: assumption log, entry 2). -/
def Ports.idle : Ports where
  cmd := 0
  ix := 0
  ir := 0
  iv := 0
  ib := Vector.replicate 26 0
  ic := Vector.replicate 7 0
  icfg := ⟨0, 0, 0, 0, 0, 0, 0⟩

/-- The machine right after reset (R38), of the default build, with no host event yet. -/
def State.reset : State where
  cal := none
  calValid := false
  tfine := none
  tfineValid := false
  status := none
  latch := Latches.bottom
  fault := none
  params := Config.default
  ports := Ports.idle
  host := []
  index := 0

end Sys2Proof.Machine
end

