-- ==== Sys2Proof/Machine/Operands.lean ====
section
/-! DEFINITION. Operand forms: the encode-side legal sets of the field codes, the register fields,
the assembly of ADC and calibration bytes, and the ranges of IX (spec/30_encoding.md rules R86 to
R101, spec/42_compensation.md rule R181). -/

namespace Sys2Proof.Machine

/-! ### Encode-side legal sets (R94) -/

/-- osrs_t, osrs_p and osrs_h: 0..5. -/
def osrsLegal (code : Byte) : Bool := code ≤ 5

/-- mode: 0, 1 or 3; the alias 2 is refused on the encode side. -/
def modeLegal (code : Byte) : Bool := code == 0 || code == 1 || code == 3

/-- t_sb: 0..7. -/
def tSbLegal (code : Byte) : Bool := code ≤ 7

/-- filter: 0..4. -/
def filterLegal (code : Byte) : Bool := code ≤ 4

/-- spi3w: 0 or 1. -/
def spi3wLegal (code : Byte) : Bool := code ≤ 1

/-- Every field of ICFG lies in its legal set (R94, R121). -/
def icfgLegal (c : Icfg) : Bool :=
  osrsLegal c.osrsT && osrsLegal c.osrsP && osrsLegal c.osrsH && modeLegal c.mode
    && tSbLegal c.tSb && filterLegal c.filter && spi3wLegal c.spi3w

/-! ### The register bytes of a configuration (R86 to R88, R121) -/

/-- ctrl_hum; bits [7:3] are 0. -/
def encCtrlHum (c : Icfg) : Byte := c.osrsH

/-- ctrl_meas. -/
def encCtrlMeas (c : Icfg) : Byte := (c.osrsT <<< 5) ||| (c.osrsP <<< 2) ||| c.mode

/-- config; bit [1] is 0. -/
def encConfigByte (c : Icfg) : Byte := (c.tSb <<< 5) ||| (c.filter <<< 2) ||| c.spi3w

/-! ### Register fields (R96, R126) -/

/-- v[hi:lo], zero-extended to a word. -/
def fieldWord (v : Byte) (hi lo : Nat) : Word := (v.extractLsb hi lo).setWidth 32

/-- v[hi:lo], zero-extended to a byte. -/
def fieldByte (v : Byte) (hi lo : Nat) : Byte := (v.extractLsb hi lo).setWidth 8

/-- The mask of the bits [hi:lo]. -/
def fieldMask (hi lo : Nat) : Byte := ((1#8 <<< (hi - lo + 1)) - 1#8) <<< lo

/-- The byte with the field [hi:lo] replaced by the code, every other bit kept (R126). -/
def replaceField (hi lo : Nat) (reg code : Byte) : Byte :=
  (reg &&& ~~~ fieldMask hi lo) ||| (code <<< lo)

/-! ### ADC readout (R97, R98) -/

/-- A 20-bit readout: xlsb[3:0] is discarded (R97). -/
def adc20 (msb lsb xlsb : Byte) : Word :=
  (msb.setWidth 32 <<< 12) ||| (lsb.setWidth 32 <<< 4) ||| (xlsb.setWidth 32 >>> 4)

/-- A 16-bit readout (R98). -/
def adc16 (msb lsb : Byte) : Word := (msb.setWidth 32 <<< 8) ||| lsb.setWidth 32

/-! ### Ranges of a raw code (R181) -/

/-- IX is a 20-bit code. -/
def isRaw20 (ix : Word) : Bool := ix ≤ 0xFFFFF#32

/-- IX is a 16-bit code. -/
def isRaw16 (ix : Word) : Bool := ix ≤ 0xFFFF#32

/-! ### Calibration blocks (R99, R100, R161) -/

/-- The little-endian 16-bit value whose low byte is `lo`: `le16` of rule R99. -/
def le16 (lo hi : Byte) : Half := hi ++ lo

/-- A nibble-packed 12-bit coefficient, widened as H45_SIGN_EXTEND says (R12, R100). -/
def packed12 (signExtend : Bool) (high : Byte) (nibble : BitVec 4) : Half :=
  if signExtend then (high ++ nibble).signExtend 16
  else (high.setWidth 16 <<< 4) ||| nibble.setWidth 16

/-- The byte of block A that holds H1 (R11, R99). -/
def h1Byte (x : H1Index) (ib : Vector Byte 26) : Byte :=
  match x with
  | .i25 => ib[25]
  | .i24 => ib[24]

/-- The coefficients of two calibration blocks, row by row of the table of rule R99. -/
def parseCal (cfg : Config) (ib : Vector Byte 26) (ic : Vector Byte 7) : Cal where
  t1 := le16 ib[0] ib[1]
  t2 := le16 ib[2] ib[3]
  t3 := le16 ib[4] ib[5]
  p1 := le16 ib[6] ib[7]
  p2 := le16 ib[8] ib[9]
  p3 := le16 ib[10] ib[11]
  p4 := le16 ib[12] ib[13]
  p5 := le16 ib[14] ib[15]
  p6 := le16 ib[16] ib[17]
  p7 := le16 ib[18] ib[19]
  p8 := le16 ib[20] ib[21]
  p9 := le16 ib[22] ib[23]
  h1 := h1Byte cfg.h1Index ib
  h2 := le16 ic[0] ic[1]
  h3 := ic[2]
  h4 := packed12 cfg.h45SignExtend ic[3] (ic[4].extractLsb' 0 4)
  h5 := packed12 cfg.h45SignExtend ic[5] (ic[4].extractLsb' 4 4)
  h6 := ic[6]

end Sys2Proof.Machine
end

