-- ==== Sys2Proof/Syntax.lean ====
section
/-! DEFINITION. The 25 commands of CERC, one constructor per row of spec/opcode_table.json
(spec/30_encoding.md rule R81). A command has no immediate field: its operands come from the
ports (R80), so no constructor carries data. -/

namespace Sys2Proof

/-- The commands of rule R81, in the table's order. -/
inductive Instr where
  | encConfig
  | decCtrlHum
  | decCtrlMeas
  | decConfig
  | decRaw
  | updOsrsH
  | updOsrsT
  | updOsrsP
  | updMode
  | updTSb
  | updFilter
  | updSpi3w
  | loadCal
  | compT
  | compP32
  | compP64
  | compH
  | splitT
  | splitP32
  | splitP64
  | splitH
  | fltT
  | fltP32
  | fltP64
  | fltH
  deriving DecidableEq, Repr

end Sys2Proof
end

