-- ==== Sys2Proof/WellFormed.lean ====
section
/-! DEFINITION. Which commands exist in a build: the only check an opcode can fail besides being
reserved is PRESS_VARIANTS (spec/30_encoding.md rules R82 and R83). Operand ranges are no matter
of form: a command with an operand outside its legal set runs and reports PARAM_ERROR (R251). -/

namespace Sys2Proof

/-- The command is built in under `v`: COMP_P32 is left out by P64_ONLY and COMP_P64 by P32_ONLY
(R6, R82). -/
def Instr.wellFormed (v : PressVariants) : Instr → Bool
  | .compP32 => v != .p64Only
  | .compP64 => v != .p32Only
  | .encConfig | .decCtrlHum | .decCtrlMeas | .decConfig | .decRaw => true
  | .updOsrsH | .updOsrsT | .updOsrsP | .updMode | .updTSb | .updFilter | .updSpi3w => true
  | .loadCal | .compT | .compH => true
  | .splitT | .splitP32 | .splitP64 | .splitH => true
  | .fltT | .fltP32 | .fltP64 | .fltH => true

end Sys2Proof
end

