-- ==== Sys2Proof/Machine/Ops.lean ====
section
/-! DEFINITION. The shared operations over the state: how a command ends (completion, parameter
error, fault: spec/60_exceptions.md rules R250 to R253), the checks before it computes (R255), and
reset, the only way out of a fault (R256, R280). -/

namespace Sys2Proof.Machine

/-- What a command answers. -/
abbrev Result := Host.Outcome State Fault Refusal

/-- The outcome of a completion with OK: STATUS and exactly the latches given, every other latch
⊥ (R33); the run index advances (R36). -/
def State.completeOk (s : State) (l : Latches) : State :=
  { s with status := some .ok, latch := l, index := s.index + 1 }

/-- The outcome of a parameter error: STATUS, every latch ⊥, no other state (R33, R251); the
command is completed, so the run index advances (R36, R250). COMP_T too leaves TFINE then (DEDUCED,
unsafe: assumption log, entry 8). -/
def State.completeParamError (s : State) : State :=
  { s with status := some .paramError, latch := Latches.bottom, index := s.index + 1 }

/-- Taking a fault, as one atomic step: FAULT holds the kind, STATUS and every latch are ⊥ and
nothing else changes (R33, R253). Nothing is saved and there is no vector (R259); the run index
stays (R36). -/
def State.takeFault (s : State) (k : FaultKind) : State :=
  { s with fault := some k, status := none, latch := Latches.bottom }

/-- The reset event: every piece of architectural state at its value of rule R38, whatever it was,
FAULT included (R280). The build's parameters stay, the host's further events are `rest`, and a
new run begins at index 0 (R36, R257). -/
def State.assertReset (s : State) (rest : List HostEvent) : State :=
  { State.reset with params := s.params, host := rest }

/-- The command completes with OK. -/
def finish (s : State) (l : Latches) : Result := .next (s.completeOk l)

/-- `status <- PARAM_ERROR; stop`. -/
def paramError (s : State) : Result := .next s.completeParamError

/-- `raise Fault(kind)`. -/
def raise (s : State) (k : FaultKind) : Result := .next (s.takeFault k)

/-- A halted CERC accepts no command: the step has no successor (R28, R256; DEDUCED, safe: assumption
log, entry 6). -/
def accept (s : State) (body : Result) : Result :=
  match s.fault with
  | none => body
  | some k => .fault (.halted k)

/-- A command of a pressure path that is not built in is an illegal command, before any other
check (R252, R255). The decoder has made this check before (DEDUCED, safe: assumption log, entry
9). -/
def requireBuilt (i : Instr) (s : State) (body : Result) : Result :=
  if i.wellFormed s.params.press then body else raise s .illegalCmd

/-- An operand outside its legal set ends the command with PARAM_ERROR (R251). -/
def requireLegal (legal : Bool) (s : State) (body : Result) : Result :=
  if legal then body else paramError s

/-- A command that needs CAL while it is unset faults, and no value is invented for ⊥ (R29), not even
in a state no run reaches (DEDUCED, safe: assumption log, entry 7). -/
def withCal (s : State) (body : Cal → Result) : Result :=
  match s.calValid, s.cal with
  | true, some c => body c
  | _, _ => raise s .calUnset

/-- A command that needs TFINE while it is unset faults, and no value is invented for ⊥ (R29; as for
CAL, assumption log, entry 7). -/
def withTfine (s : State) (body : Word → Result) : Result :=
  match s.tfineValid, s.tfine with
  | true, some f => body f
  | _, _ => raise s .tfineUnset

end Sys2Proof.Machine
end

