-- ==== Sys2Proof/Machine/Calibration.lean ====
section
/-! DEFINITION. The calibration parser (spec/41_calibration.md rules R160 to R164). -/

namespace Sys2Proof.Machine

/-- CAL and CAL_VALID written together, in one step (R23, R66). -/
def State.writeCal (s : State) (c : Cal) : State := { s with cal := some c, calValid := true }

/-- LOAD_CAL (R161): a second load without reset is the fault CAL_RELOAD, which leaves CAL as it
was. -/
def execLoadCal (s : State) : Result :=
  accept s <|
    if s.calValid then raise s .calReload
    else finish (s.writeCal (parseCal s.params s.ports.ib s.ports.ic)) Latches.bottom

end Sys2Proof.Machine
end

