-- ==== Sys2Proof/Machine/Flags.lean ====
section
/-! DEFINITION. The status outputs CERC has instead of condition codes (spec/10_state.md rule R35):
the recognised-code bits YV and the write-needed verdict YW, with the codes of STATUS and FAULT. -/

namespace Sys2Proof.Machine

/-- An oversampling code of 0..5 is recognised on the decode side (R95). -/
def osrsRecognised (code : Word) : Bool := code ≤ 5

/-- A filter code of 0..4 is recognised on the decode side (R95). -/
def filterRecognised (code : Word) : Bool := code ≤ 4

/-- {b2, b1, b0}: the three bits of YV, b0 in bit 0 (R14, R32). -/
def yvBits (b2 b1 b0 : Bool) : BitVec 3 := BitVec.ofBool b2 ++ BitVec.ofBool b1 ++ BitVec.ofBool b0

/-- YV of DEC_CTRL_HUM: bit 0 says whether osrs_h is recognised; bits 2 and 1 are 0 (R122). -/
def yvCtrlHum (osrsH : Word) : BitVec 3 := yvBits false false (osrsRecognised osrsH)

/-- YV of DEC_CTRL_MEAS: the mode is always recognised (R95, R123). -/
def yvCtrlMeas (osrsT osrsP : Word) : BitVec 3 :=
  yvBits true (osrsRecognised osrsP) (osrsRecognised osrsT)

/-- YV of DEC_CONFIG: every t_sb and spi3w is recognised (R95, R124). -/
def yvConfig (filter : Word) : BitVec 3 := yvBits true (filterRecognised filter) true

/-- YW: the field's current bits differ from the requested code (R126). -/
def writeNeeded (hi lo : Nat) (reg code : Byte) : Bool := fieldByte reg hi lo != code

/-- The code of FAULT in the first column of rule R253's table. -/
def faultCode : Option FaultKind → Nat
  | none => 0
  | some .illegalCmd => 1
  | some .calUnset => 2
  | some .tfineUnset => 3
  | some .calReload => 4

end Sys2Proof.Machine
end

