-- ==== Sys2Proof/Machine/Codec.lean ====
section
/-! DEFINITION. The register codec commands (spec/40_codec.md rules R120 to R133). -/

namespace Sys2Proof.Machine

/-- ENC_CONFIG (R121). -/
def execEncConfig (s : State) : Result :=
  accept s <| requireLegal (icfgLegal s.ports.icfg) s <|
    finish s { Latches.bottom with
      yb0 := some (encCtrlHum s.ports.icfg)
      yb1 := some (encCtrlMeas s.ports.icfg)
      yb2 := some (encConfigByte s.ports.icfg) }

/-- DEC_CTRL_HUM (R122). -/
def execDecCtrlHum (s : State) : Result :=
  accept s <|
    finish s { Latches.bottom with
      y0 := some (fieldWord s.ports.ir 2 0)
      yv := some (yvCtrlHum (fieldWord s.ports.ir 2 0)) }

/-- DEC_CTRL_MEAS (R123). -/
def execDecCtrlMeas (s : State) : Result :=
  accept s <|
    finish s { Latches.bottom with
      y0 := some (fieldWord s.ports.ir 7 5)
      y1 := some (fieldWord s.ports.ir 4 2)
      y2 := some (fieldWord s.ports.ir 1 0)
      yv := some (yvCtrlMeas (fieldWord s.ports.ir 7 5) (fieldWord s.ports.ir 4 2)) }

/-- DEC_CONFIG (R124). -/
def execDecConfig (s : State) : Result :=
  accept s <|
    finish s { Latches.bottom with
      y0 := some (fieldWord s.ports.ir 7 5)
      y1 := some (fieldWord s.ports.ir 4 2)
      y2 := some (fieldWord s.ports.ir 0 0)
      yv := some (yvConfig (fieldWord s.ports.ir 4 2)) }

/-- DEC_RAW (R125). -/
def execDecRaw (s : State) : Result :=
  accept s <|
    finish s { Latches.bottom with
      y0 := some (adc20 s.ports.ib[0] s.ports.ib[1] s.ports.ib[2])
      y1 := some (adc20 s.ports.ib[3] s.ports.ib[4] s.ports.ib[5])
      y2 := some (adc16 s.ports.ib[6] s.ports.ib[7]) }

/-- The field update the seven UPD_* commands share: the field [hi:lo] of IR takes the code IV if
`legal` admits it (R126). -/
def updateField (hi lo : Nat) (legal : Byte → Bool) (s : State) : Result :=
  accept s <| requireLegal (legal s.ports.iv) s <|
    finish s { Latches.bottom with
      yb0 := some (replaceField hi lo s.ports.ir s.ports.iv)
      yw := some (writeNeeded hi lo s.ports.ir s.ports.iv) }

/-- UPD_OSRS_H: ctrl_hum[2:0] (R127). -/
def execUpdOsrsH (s : State) : Result := updateField 2 0 osrsLegal s

/-- UPD_OSRS_T: ctrl_meas[7:5] (R128). -/
def execUpdOsrsT (s : State) : Result := updateField 7 5 osrsLegal s

/-- UPD_OSRS_P: ctrl_meas[4:2] (R129). -/
def execUpdOsrsP (s : State) : Result := updateField 4 2 osrsLegal s

/-- UPD_MODE: ctrl_meas[1:0] (R130). -/
def execUpdMode (s : State) : Result := updateField 1 0 modeLegal s

/-- UPD_T_SB: config[7:5] (R131). -/
def execUpdTSb (s : State) : Result := updateField 7 5 tSbLegal s

/-- UPD_FILTER: config[4:2] (R132). -/
def execUpdFilter (s : State) : Result := updateField 4 2 filterLegal s

/-- UPD_SPI3W: config[0] (R133). -/
def execUpdSpi3w (s : State) : Result := updateField 0 0 spi3wLegal s

end Sys2Proof.Machine
end

