-- ==== Sys2Proof/Machine/Formulas.lean ====
section
/-! DEFINITION. The compensation formulas (spec/42_compensation.md rules R183 to R197), line by
line of their pseudocode. On bit vectors +, - , * and <<< are the wrapping operators of rules R15
and R16; `sshiftRight` is >> on a signed type, `>>>` is >> on u32, `sdiv` is the signed division
rounding toward zero of rule R17, whose quotient 2^63 wraps to -2^63 (R195), and `/` is the u32
division. -/

namespace Sys2Proof.Machine

/-! ### Casts of the coefficients (R15) -/

/-- (s32) or (s64) of a signed coefficient. -/
def sext {w : Nat} (n : Nat) (x : BitVec w) : BitVec n := x.signExtend n

/-- (s32) or (s64) of an unsigned coefficient. -/
def zext {w : Nat} (n : Nat) (x : BitVec w) : BitVec n := x.setWidth n

/-! ### Temperature (R183, R184) -/

/-- The temperature scaling primitive tsc(x, k) (R183). -/
def tsc (m : TempScaling) (x : Word) (k : Nat) : Word :=
  match m with
  | .floor => x.sshiftRight k
  | .trunc => x.sdiv (1#32 <<< k)

/-- var1 of rule R184. -/
def tempVar1 (m : TempScaling) (c : Cal) (adc : Word) : Word :=
  tsc m ((tsc m adc 3 - (zext 32 c.t1 <<< 1)) * sext 32 c.t2) 11

/-- var2 of rule R184. -/
def tempVar2 (m : TempScaling) (c : Cal) (adc : Word) : Word :=
  let d := tsc m adc 4 - zext 32 c.t1
  tsc m (tsc m (d * d) 12 * sext 32 c.t3) 14

/-- fine of rule R184, the value of TFINE. -/
def tempFine (m : TempScaling) (c : Cal) (adc : Word) : Word :=
  tempVar1 m c adc + tempVar2 m c adc

/-- T of rule R184: the temperature of a fine temperature, in hundredths of °C (R185). -/
def tempOfFine (m : TempScaling) (fine : Word) : Word := tsc m (fine * 5#32 + 128#32) 8

/-! ### Pressure, 32-bit path (R188, R189) -/

/-- The first var1 of rule R188. -/
def p32Start (tfine : Word) : Word := tfine.sshiftRight 1 - 64000#32

/-- var2 of rule R188 after its three lines. -/
def p32Offset (c : Cal) (tfine : Word) : Word :=
  let v1 := p32Start tfine
  let v2 := ((v1.sshiftRight 2 * v1.sshiftRight 2).sshiftRight 11) * sext 32 c.p6
  let v2 := v2 + ((v1 * sext 32 c.p5) <<< 1)
  v2.sshiftRight 2 + (sext 32 c.p4 <<< 16)

/-- The denominator: var1 of rule R188 at the guard of rule R187. -/
def p32Denominator (c : Cal) (tfine : Word) : Word :=
  let v1 := p32Start tfine
  let v1 := ((sext 32 c.p3 * (v1.sshiftRight 2 * v1.sshiftRight 2).sshiftRight 13).sshiftRight 3
    + (sext 32 c.p2 * v1).sshiftRight 1).sshiftRight 18
  ((32768#32 + v1) * zext 32 c.p1).sshiftRight 15

/-- The two-branch unsigned division (R189). -/
def p32Quotient (p var1 : Word) : Word :=
  if p < 0x80000000#32 then (p <<< 1) / var1 else (p / var1) * 2#32

/-- The last three lines of rule R188; the product of p >>> 3 with itself is u32. -/
def p32Finish (c : Cal) (p : Word) : Word :=
  let v1 := (sext 32 c.p9 * (((p >>> 3) * (p >>> 3)) >>> 13)).sshiftRight 12
  let v2 := ((p >>> 2) * sext 32 c.p8).sshiftRight 13
  p + (v1 + v2 + sext 32 c.p7).sshiftRight 4

/-- Y0 of COMP_P32: pascals, u32 (R188, R190); a zero denominator gives 0 (R187). -/
def pressure32 (c : Cal) (tfine adc : Word) : Word :=
  let var1 := p32Denominator c tfine
  if var1 = 0#32 then 0#32
  else
    let p := ((1048576#32 - adc) - (p32Offset c tfine).sshiftRight 12) * 3125#32
    p32Finish c (p32Quotient p var1)

/-! ### Pressure, 64-bit path (R193) -/

/-- The first var1 of rule R193. -/
def p64Start (tfine : Word) : Dword := sext 64 tfine - 128000#64

/-- var2 of rule R193 after its three lines. -/
def p64Offset (c : Cal) (tfine : Word) : Dword :=
  let v1 := p64Start tfine
  let v2 := v1 * v1 * sext 64 c.p6
  let v2 := v2 + ((v1 * sext 64 c.p5) <<< 17)
  v2 + (sext 64 c.p4 <<< 35)

/-- The denominator: var1 of rule R193 at the guard of rule R192. -/
def p64Denominator (c : Cal) (tfine : Word) : Dword :=
  let v1 := p64Start tfine
  let v1 := (v1 * v1 * sext 64 c.p3).sshiftRight 8 + ((v1 * sext 64 c.p2) <<< 12)
  (((1#64 <<< 47) + v1) * zext 64 c.p1).sshiftRight 33

/-- The last three lines of rule R193, less the truncation. -/
def p64Finish (c : Cal) (p : Dword) : Dword :=
  let v1 := (sext 64 c.p9 * p.sshiftRight 13 * p.sshiftRight 13).sshiftRight 25
  let v2 := (sext 64 c.p8 * p).sshiftRight 19
  (p + v1 + v2).sshiftRight 8 + (sext 64 c.p7 <<< 4)

/-- Y0 of COMP_P64: Q24.8 pascals, the low 32 bits (R193, R194); a zero denominator gives 0
(R192). -/
def pressure64 (c : Cal) (tfine adc : Word) : Word :=
  let var1 := p64Denominator c tfine
  if var1 = 0#64 then 0#32
  else
    let p := 1048576#64 - zext 64 adc
    let p := (((p <<< 31) - p64Offset c tfine) * 3125#64).sdiv var1
    (p64Finish c p).setWidth 32

/-! ### Humidity (R196, R197) -/

/-- The only saturation of the engine: to [0, 419430400] (R196). -/
def clampHumidity (v : Word) : Word :=
  if v.slt 0#32 then 0#32
  else if (419430400#32).slt v then 419430400#32
  else v

/-- v of rule R197 before the clamp. -/
def humidityRaw (cal : Cal) (tfine adc : Word) : Word :=
  let v := tfine - 76800#32
  let a := ((((adc <<< 14) - (sext 32 cal.h4 <<< 20)) - (sext 32 cal.h5 * v)) + 16384#32).sshiftRight 15
  let b := (v * sext 32 cal.h6).sshiftRight 10
  let c := (v * zext 32 cal.h3).sshiftRight 11 + 32768#32
  let d := (b * c).sshiftRight 10 + 2097152#32
  let e := ((d * sext 32 cal.h2) + 8192#32).sshiftRight 14
  let v := a * e
  v - (((v.sshiftRight 15 * v.sshiftRight 15).sshiftRight 7) * zext 32 cal.h1).sshiftRight 4

/-- Y0 of COMP_H: Q22.10 %RH, u32 (R197, R198). -/
def humidity (c : Cal) (tfine adc : Word) : Word :=
  (clampHumidity (humidityRaw c tfine adc)).sshiftRight 12

end Sys2Proof.Machine
end

