-- ==== Sys2Proof/Machine/Compensation.lean ====
section
/-! DEFINITION. The compensation commands (spec/42_compensation.md): the checks in the order of
rule R180, then the formula. -/

namespace Sys2Proof.Machine

/-- TFINE and TFINE_VALID written together (R25, R184). -/
def State.writeTfine (s : State) (fine : Word) : State :=
  { s with tfine := some fine, tfineValid := true }

/-- COMP_T (R184). -/
def execCompT (s : State) : Result :=
  accept s <| requireLegal (isRaw20 s.ports.ix) s <| withCal s fun c =>
    let fine := tempFine s.params.tempScaling c s.ports.ix
    finish (s.writeTfine fine)
      { Latches.bottom with y0 := some (tempOfFine s.params.tempScaling fine) }

/-- COMP_P32 (R188). -/
def execCompP32 (s : State) : Result :=
  accept s <| requireBuilt .compP32 s <| requireLegal (isRaw20 s.ports.ix) s <|
    withCal s fun c => withTfine s fun f =>
      finish s { Latches.bottom with y0 := some (pressure32 c f s.ports.ix) }

/-- COMP_P64 (R193). -/
def execCompP64 (s : State) : Result :=
  accept s <| requireBuilt .compP64 s <| requireLegal (isRaw20 s.ports.ix) s <|
    withCal s fun c => withTfine s fun f =>
      finish s { Latches.bottom with y0 := some (pressure64 c f s.ports.ix) }

/-- COMP_H (R197). -/
def execCompH (s : State) : Result :=
  accept s <| requireLegal (isRaw16 s.ports.ix) s <|
    withCal s fun c => withTfine s fun f =>
      finish s { Latches.bottom with y0 := some (humidity c f s.ports.ix) }

end Sys2Proof.Machine
end

