-- ==== Sys2Proof/Machine/Float.lean ====
section
/-! DEFINITION. The floating-point arithmetic of the FLT_* commands (spec/00_scope.md rule R10,
spec/43_conversion.md rule R226): integers and their quotients rounded to nearest, ties to even,
into the bits of an IEEE 754 format. A magnitude is the bits of a non-negative float; the sign is
kept apart. -/

namespace Sys2Proof.Machine

/-- The trailing significand bits of a format. -/
def fracBits : FloatFmt → Nat
  | .binary32 => 23
  | .binary64 => 52

/-- The exponent bias of a format; the largest finite exponent is the bias. -/
def floatBias : FloatFmt → Nat
  | .binary32 => 127
  | .binary64 => 1023

/-- n / d rounded to the nearest integer, a tie to the even one. -/
def divNearestEven (n d : Nat) : Nat :=
  let q := n / d
  let r := n % d
  if 2 * r < d then q
  else if d < 2 * r then q + 1
  else if q % 2 = 0 then q
  else q + 1

/-- The exponent e with 2^e ≤ n / d < 2^(e+1), for positive n and d. -/
def ratioExponent (n d : Nat) : Int :=
  let a := Nat.log2 n
  let b := Nat.log2 d
  if n * 2 ^ b < d * 2 ^ a then (a : Int) - b - 1 else (a : Int) - b

/-- The magnitude of n / d in a format, rounded to nearest even: a subnormal below the least normal
exponent, infinity above the largest finite value; 0 for n = 0. Positive d only. -/
def roundRatio (fmt : FloatFmt) (n d : Nat) : Nat :=
  if n = 0 then 0
  else
    let fb := fracBits fmt
    let e := max (ratioExponent n d) (1 - (floatBias fmt : Int))
    let shift := e - fb
    let m := divNearestEven (n * 2 ^ (-shift).toNat) (d * 2 ^ shift.toNat)
    let mag := (e + floatBias fmt - 1).toNat * 2 ^ fb + m
    min mag ((2 * floatBias fmt + 1) * 2 ^ fb)

/-- The numerator of a finite magnitude's value. -/
def magNum (fmt : FloatFmt) (mag : Nat) : Nat :=
  let fb := fracBits fmt
  let ex := mag / 2 ^ fb
  let f := mag % 2 ^ fb
  if ex = 0 then f else (2 ^ fb + f) * 2 ^ (ex - (floatBias fmt + fb))

/-- The denominator of a finite magnitude's value. -/
def magDen (fmt : FloatFmt) (mag : Nat) : Nat :=
  let fb := fracBits fmt
  let ex := mag / 2 ^ fb
  if ex = 0 then 2 ^ (floatBias fmt - 1 + fb) else 2 ^ (floatBias fmt + fb - ex)

/-- The magnitude of fl(n): a non-negative integer converted to the format (R226). -/
def intMag (fmt : FloatFmt) (n : Nat) : Nat := roundRatio fmt n 1

/-- The magnitude of a ÷f b for finite a and positive finite b (R226). -/
def divMag (fmt : FloatFmt) (a b : Nat) : Nat :=
  roundRatio fmt (magNum fmt a * magDen fmt b) (magDen fmt a * magNum fmt b)

/-- The float of a sign and a magnitude. -/
def packFloat (fmt : FloatFmt) (neg : Bool) (mag : Nat) : FloatVal :=
  match fmt with
  | .binary32 => .b32 (BitVec.ofNat 32 (mag + if neg then 2 ^ 31 else 0))
  | .binary64 => .b64 (BitVec.ofNat 64 (mag + if neg then 2 ^ 63 else 0))

/-- fl(x) ÷f fl(scale), with its two roundings; the sign is x's, and x = 0 gives +0.0 (R226). -/
def scaledFloat (fmt : FloatFmt) (x : Int) (scale : Nat) : FloatVal :=
  packFloat fmt (x < 0) (divMag fmt (intMag fmt x.natAbs) (intMag fmt scale))

end Sys2Proof.Machine
end

