-- ==== Sys2Proof/Machine/Conversion.lean ====
section
/-! DEFINITION. The unit conversion commands (spec/43_conversion.md rules R220 to R230). -/

namespace Sys2Proof.Machine

/-- P64_RESCALE: Q24.8 pascals to ten-thousandths of hPa, by default floor(q * 100 / 256) computed
exactly (R8). -/
def p64Rescale (r : Rescale) (q : Word) : Word :=
  match r with
  | .exactFloor => BitVec.ofNat 32 (q.toNat * 100 / 256)
  | .other n => Config.otherRescale n q

/-- H_RESCALE: Q22.10 %RH to thousandths of %RH, by default floor(h * 1000 / 1024) computed
exactly (R9). -/
def hRescale (r : Rescale) (h : Word) : Word :=
  match r with
  | .exactFloor => BitVec.ofNat 32 (h.toNat * 1000 / 1024)
  | .other n => Config.otherRescale n h

/-- A completion that writes Y0 (integer part) and Y1 (fractional part). -/
def finishSplit (s : State) (whole frac : Word) : Result :=
  accept s <| finish s { Latches.bottom with y0 := some whole, y1 := some frac }

/-- A completion that writes YF. -/
def finishFloat (s : State) (x : Int) (scale : Nat) : Result :=
  accept s <| finish s { Latches.bottom with yf := some (scaledFloat s.params.floatFmt x scale) }

/-- SPLIT_T: signed division rounding toward zero, the remainder with the sign of t (R17, R221). -/
def execSplitT (s : State) : Result :=
  finishSplit s (s.ports.ix.sdiv 100#32) (s.ports.ix.srem 100#32)

/-- SPLIT_P32 (R222). -/
def execSplitP32 (s : State) : Result :=
  finishSplit s (s.ports.ix / 100#32) (s.ports.ix % 100#32)

/-- SPLIT_P64: the last decimal digit of the rescaled value is dropped (R223). -/
def execSplitP64 (s : State) : Result :=
  let x := p64Rescale s.params.p64Rescale s.ports.ix
  finishSplit s (x / 10000#32) (x % 10000#32 / 10#32)

/-- SPLIT_H (R224). -/
def execSplitH (s : State) : Result :=
  let x := hRescale s.params.hRescale s.ports.ix
  finishSplit s (x / 1000#32) (x % 1000#32)

/-- FLT_T (R227). -/
def execFltT (s : State) : Result := finishFloat s s.ports.ix.toInt 100

/-- FLT_P32 (R228). -/
def execFltP32 (s : State) : Result := finishFloat s s.ports.ix.toNat 100

/-- FLT_P64 (R229). -/
def execFltP64 (s : State) : Result :=
  finishFloat s (p64Rescale s.params.p64Rescale s.ports.ix).toNat 10000

/-- FLT_H (R230). -/
def execFltH (s : State) : Result :=
  finishFloat s (hRescale s.params.hRescale s.ports.ix).toNat 1000

end Sys2Proof.Machine
end

