-- ==== Sys2Proof/Machine/Dispatch.lean ====
section
/-! DEFINITION. The meaning of every command: one arm per constructor of Instr. -/

namespace Sys2Proof.Machine

def exec (i : Instr) (s : State) : Host.Outcome State Fault Refusal :=
  match i with
  | .encConfig => Sys2Proof.Machine.execEncConfig s
  | .decCtrlHum => Sys2Proof.Machine.execDecCtrlHum s
  | .decCtrlMeas => Sys2Proof.Machine.execDecCtrlMeas s
  | .decConfig => Sys2Proof.Machine.execDecConfig s
  | .decRaw => Sys2Proof.Machine.execDecRaw s
  | .updOsrsH => Sys2Proof.Machine.execUpdOsrsH s
  | .updOsrsT => Sys2Proof.Machine.execUpdOsrsT s
  | .updOsrsP => Sys2Proof.Machine.execUpdOsrsP s
  | .updMode => Sys2Proof.Machine.execUpdMode s
  | .updTSb => Sys2Proof.Machine.execUpdTSb s
  | .updFilter => Sys2Proof.Machine.execUpdFilter s
  | .updSpi3w => Sys2Proof.Machine.execUpdSpi3w s
  | .loadCal => Sys2Proof.Machine.execLoadCal s
  | .compT => Sys2Proof.Machine.execCompT s
  | .compP32 => Sys2Proof.Machine.execCompP32 s
  | .compP64 => Sys2Proof.Machine.execCompP64 s
  | .compH => Sys2Proof.Machine.execCompH s
  | .splitT => Sys2Proof.Machine.execSplitT s
  | .splitP32 => Sys2Proof.Machine.execSplitP32 s
  | .splitP64 => Sys2Proof.Machine.execSplitP64 s
  | .splitH => Sys2Proof.Machine.execSplitH s
  | .fltT => Sys2Proof.Machine.execFltT s
  | .fltP32 => Sys2Proof.Machine.execFltP32 s
  | .fltP64 => Sys2Proof.Machine.execFltP64 s
  | .fltH => Sys2Proof.Machine.execFltH s

end Sys2Proof.Machine
end

