-- ==== Sys2Proof/Decode.lean ====
section
/-! DEFINITION. The decoder and the encoder of CERC's one-byte commands (spec/30_encoding.md rules
R80 to R83). -/

namespace Sys2Proof

/-- Why bytes are no command: no byte was given; the opcode is reserved; the opcode is that of a
pressure path this build leaves out (R82). -/
inductive DecodeError where
  | noByte
  | reserved (op : Byte)
  | notBuilt (i : Instr)
  deriving DecidableEq, Repr

/-- The command map of rule R81: opcode and command, in the table's order. -/
def opcodeMap : List (Byte × Instr) :=
  [ (0x01#8, .encConfig), (0x02#8, .decCtrlHum), (0x03#8, .decCtrlMeas), (0x04#8, .decConfig),
    (0x05#8, .decRaw) ]
  ++
  [ (0x10#8, .updOsrsH), (0x11#8, .updOsrsT), (0x12#8, .updOsrsP), (0x13#8, .updMode),
    (0x14#8, .updTSb), (0x15#8, .updFilter), (0x16#8, .updSpi3w) ]
  ++
  [ (0x20#8, .loadCal), (0x30#8, .compT), (0x31#8, .compP32), (0x32#8, .compP64), (0x33#8, .compH) ]
  ++
  [ (0x40#8, .splitT), (0x41#8, .splitP32), (0x42#8, .splitP64), (0x43#8, .splitH) ]
  ++
  [ (0x48#8, .fltT), (0x49#8, .fltP32), (0x4A#8, .fltP64), (0x4B#8, .fltH) ]

/-- The command of an opcode, whatever the build; none for a reserved opcode (R81, R82). -/
def decodeOpcode (op : Byte) : Option Instr :=
  (opcodeMap.find? (fun row => row.1 == op)).map (fun row => row.2)

/-- Decoding looks at all 8 bits, and the one parameter that changes it is PRESS_VARIANTS
(R80, R82, R83). -/
def decodeCmd (v : PressVariants) (op : Byte) : Except DecodeError Instr :=
  match decodeOpcode op with
  | none => .error (.reserved op)
  | some i => if i.wellFormed v then .ok i else .error (.notBuilt i)

/-- Decoding a byte stream: every command is exactly one byte long (R83). -/
def decode (v : PressVariants) : List Byte → Except DecodeError (Instr × List Byte)
  | [] => .error .noByte
  | op :: rest =>
    match decodeCmd v op with
    | .ok i => .ok (i, rest)
    | .error e => .error e

/-- The opcode of a command (R81). -/
def opcode : Instr → Byte
  | .encConfig => 0x01#8
  | .decCtrlHum => 0x02#8
  | .decCtrlMeas => 0x03#8
  | .decConfig => 0x04#8
  | .decRaw => 0x05#8
  | .updOsrsH => 0x10#8
  | .updOsrsT => 0x11#8
  | .updOsrsP => 0x12#8
  | .updMode => 0x13#8
  | .updTSb => 0x14#8
  | .updFilter => 0x15#8
  | .updSpi3w => 0x16#8
  | .loadCal => 0x20#8
  | .compT => 0x30#8
  | .compP32 => 0x31#8
  | .compP64 => 0x32#8
  | .compH => 0x33#8
  | .splitT => 0x40#8
  | .splitP32 => 0x41#8
  | .splitP64 => 0x42#8
  | .splitH => 0x43#8
  | .fltT => 0x48#8
  | .fltP32 => 0x49#8
  | .fltP64 => 0x4A#8
  | .fltH => 0x4B#8

/-- The words of a command: its opcode byte alone (R84). -/
def encode (i : Instr) : List Byte := [opcode i]

/-- What the decoder reads from a row of spec/opcode_table.json: a row is one byte, and the
build is the default one, with both pressure paths. -/
def decodeTableWord (nbits w : Nat) : Option Instr :=
  if nbits = 8 then
    match decodeCmd .both (BitVec.ofNat 8 w) with
    | .ok i => some i
    | .error _ => none
  else none

end Sys2Proof
end

