-- ==== Sys2Proof/Machine/Fetch.lean ====
section
/-! DEFINITION. How CERC takes its next command. It has no program counter and no instruction
memory: the next command is whatever the host presents next (spec/00_scope.md rule R2,
spec/20_memory.md rules R64 and R67). -/

namespace Sys2Proof.Machine

/-- The ports are sampled as the command executes (R31); the host goes on with `rest`. -/
def State.sample (s : State) (p : Ports) (rest : List HostEvent) : State :=
  { s with ports := p, host := rest }

/-- A reserved opcode, or that of a path that is not built in: the fault ILLEGAL_CMD, with no port
read (R252). -/
def illegalCommand (s : State) : Result := accept s (raise s .illegalCmd)

/-- Decode CMD before any other check, and give the command its meaning (R252, R255). -/
def runSampled (meaning : Instr → State → Result) (s : State) : Result :=
  match decodeCmd s.params.press s.ports.cmd with
  | .ok i => meaning i s
  | .error _ => illegalCommand s

/-- One host event. With none there is no step; reset acts between commands and on a halted CERC
too (R280). The events as a list in State are the model's (DESIGN CHOICE, safe: assumption log,
entry 1). -/
def stepEvent (meaning : Instr → State → Result) (s : State) : Result :=
  match s.host with
  | [] => .refused .noCommand
  | .reset :: rest => .next (s.assertReset rest)
  | .command p :: rest => runSampled meaning (s.sample p rest)

/-- The host's next event made a command with the opcode `op`: a command it already presents keeps
its operand ports, and otherwise every operand port is 0. -/
def presentOpcode (op : Byte) : List HostEvent → List HostEvent
  | [] => [.command { Ports.idle with cmd := op }]
  | .reset :: rest => .command { Ports.idle with cmd := op } :: rest
  | .command p :: rest => .command { p with cmd := op } :: rest

end Sys2Proof.Machine
end

