-- ==== Sys2Proof/Machine/Step.lean ====
section
/-! DEFINITION. One step of CERC: one host event (spec/00_scope.md rule R5). -/

namespace Sys2Proof.Machine

/-- The step. -/
def step (s : State) : Host.Outcome State Fault Refusal := stepEvent exec s

/-- s with the opcode w presented as the host's next command. Every command is one byte, so nothing
lies above the row's eight bits (R83). -/
def State.withFetchWord (s : State) (_nbits w : Nat) : State :=
  { s with host := presentOpcode (BitVec.ofNat 8 w) s.host }

end Sys2Proof.Machine
end

