-- ==== Sys2Proof/Machine/RegisterMap.lean ====
section
/-! DEFINITION. The sensor's register map, as the address space whose bytes CERC encodes and
decodes (spec/20_memory.md rules R50 to R61), and the meanings of the field codes
(spec/30_encoding.md rules R89 to R93). CERC never accesses these registers (R50): nothing here is
state, and no step reads it. The host's side is spec/70_reset_and_hazards.md (DESIGN CHOICE, safe:
assumption log, entry 11). -/

namespace Sys2Proof.Machine

/-- An address of the sensor's register space: 8 bits, one byte at each address (R50). -/
abbrev RegAddr := BitVec 8

/-- What the driver does with a register (R51). -/
inductive Access where
  | read
  | write
  | readWrite
  deriving DecidableEq, Repr

/-- The ports that take a block of register bytes (R31). -/
inductive BlockPort where
  | ib
  | ic
  deriving DecidableEq, Repr

/-- Which bytes of a block port take a row's registers: the register at the row's address goes to
byte `first`, and the ones after it to the bytes after that (R51, R54 to R56). -/
structure PortBytes where
  port : BlockPort
  first : Nat
  deriving DecidableEq, Repr

/-- A row of the register map (R51): first address, length in bytes, access, the commands that
handle its bytes, and the port bytes the map names with the command. -/
structure RegRow where
  name : String
  addr : RegAddr
  length : Nat
  access : Access
  commands : List Instr
  port : Option PortBytes
  deriving DecidableEq, Repr

/-- The register of the chip ID (R51, R52). -/
def chipIdReg : RegAddr := 0xD0

/-- Calibration block A: IB[i] is register 0x88 + i (R54). -/
def calBlockA : RegAddr := 0x88

/-- Calibration block B: IC[i] is register 0xE1 + i (R55). -/
def calBlockB : RegAddr := 0xE1

/-- The ADC readout: IB[i] of DEC_RAW is register 0xF7 + i (R56). -/
def adcReadout : RegAddr := 0xF7

/-- The register map of rule R51, with block A of 26 bytes (R54). -/
def registerMap : List RegRow :=
  [ ⟨"Chip ID", chipIdReg, 1, .read, [], none⟩,
    ⟨"Reset", 0xE0, 1, .write, [], none⟩,
    ⟨"Calibration block 1", calBlockA, 26, .read, [.loadCal], some ⟨.ib, 0⟩⟩,
    ⟨"Calibration block 2", calBlockB, 7, .read, [.loadCal], some ⟨.ic, 0⟩⟩ ]
  ++
  [ ⟨"ctrl_hum", 0xF2, 1, .readWrite, [.encConfig, .decCtrlHum, .updOsrsH], none⟩,
    ⟨"ctrl_meas", 0xF4, 1, .readWrite,
      [.encConfig, .decCtrlMeas, .updOsrsT, .updOsrsP, .updMode], none⟩,
    ⟨"config", 0xF5, 1, .readWrite,
      [.encConfig, .decConfig, .updTSb, .updFilter, .updSpi3w], none⟩ ]
  ++
  [ ⟨"Pressure ADC", 0xF7, 3, .read, [.decRaw], some ⟨.ib, 0⟩⟩,
    ⟨"Temperature ADC", 0xFA, 3, .read, [.decRaw], some ⟨.ib, 3⟩⟩,
    ⟨"Humidity ADC", 0xFD, 2, .read, [.decRaw], some ⟨.ib, 6⟩⟩ ]

/-- The expected chip ID (R52). -/
def chipId : Byte := 0x60

/-- The write that resets the sensor, not CERC (R53, R281): address and byte. -/
def sensorReset : RegAddr × Byte := (0xE0, 0xB6)

/-- What reads of the sensor's registers answer: address and byte. -/
abbrev Image := List (RegAddr × Byte)

/-- The byte a read of one register answers; none at an address the image does not list, whose
content no one may assume (R57) or whose read failed. -/
def readReg (img : Image) (a : RegAddr) : Option Byte :=
  (img.find? (fun cell => cell.1 == a)).map (fun cell => cell.2)

/-- The bytes of n registers from a on, in order. Only for a range that ends at or below 0xFF. -/
def readFrom (img : Image) (a : RegAddr) : Nat → Option (List Byte)
  | 0 => some []
  | n + 1 =>
    match readReg img a, readFrom img (a + 1) n with
    | some b, some rest => some (b :: rest)
    | _, _ => none

/-- A burst of n at address a: the registers a, a+1, ..., a+n-1 in that order (R61). The spec does
not say what a burst does that would run past 0xFF, the last address of the 8-bit space: here it
answers no bytes, and it neither goes on to an address 0x100 nor wraps to 0x00 (DESIGN CHOICE, safe:
assumption log, entry 15). -/
def burst (img : Image) (a : RegAddr) (n : Nat) : Option (List Byte) :=
  if a.toNat + n ≤ 256 then readFrom img a n else none

/-- A burst as the bytes of a port of n bytes. -/
def burstPort (img : Image) (a : RegAddr) (n : Nat) : Option (Vector Byte n) :=
  match burst img a n with
  | some bytes => if h : bytes.length = n then some ⟨bytes.toArray, by simpa using h⟩ else none
  | none => none

/-! ### Meanings of the field codes -/

/-- Oversampling: 0 is skip, then the number of samples; 6 and 7 are not recognised (R89). -/
def oversampling (code : Nat) : Option Nat :=
  match code with
  | 0 => some 0
  | 1 => some 1
  | 2 => some 2
  | 3 => some 4
  | 4 => some 8
  | 5 => some 16
  | _ => none

/-- The sensor's modes (R90). -/
inductive SensorMode where
  | sleep
  | forced
  | normal
  deriving DecidableEq, Repr

/-- Mode codes: 2 is an alias of forced (R90). -/
def sensorMode (code : Nat) : Option SensorMode :=
  match code with
  | 0 => some .sleep
  | 1 => some .forced
  | 2 => some .forced
  | 3 => some .normal
  | _ => none

/-- Standby time in tenths of a millisecond (R91). -/
def standbyTenthsMs (code : Nat) : Option Nat :=
  match code with
  | 0 => some 5
  | 1 => some 625
  | 2 => some 1250
  | 3 => some 2500
  | 4 => some 5000
  | 5 => some 10000
  | 6 => some 100
  | 7 => some 200
  | _ => none

/-- Filter coefficient: 0 is off; 5, 6 and 7 are not recognised (R92). -/
def filterCoefficient (code : Nat) : Option Nat :=
  match code with
  | 0 => some 0
  | 1 => some 2
  | 2 => some 4
  | 3 => some 8
  | 4 => some 16
  | _ => none

/-- 3-wire SPI: 0 is disabled, 1 enabled (R93). -/
def spi3wEnabled (code : Nat) : Option Bool :=
  match code with
  | 0 => some false
  | 1 => some true
  | _ => none

end Sys2Proof.Machine
end

