-- ==== Sys2Proof/Machine/HostSide.lean ====
section
/-! DEFINITION. What a host that keeps its duties presents to CERC and writes to the sensor
(spec/70_reset_and_hazards.md rules R283 to R293, spec/30_encoding.md rule R85). A host is free to
do otherwise, CERC checks none of it, and no step reads this file (DESIGN CHOICE, safe: assumption log,
entry 11). -/

namespace Sys2Proof.Machine

/-- A command with its operand ports. -/
def present (i : Instr) (operands : Ports) : HostEvent :=
  .command { operands with cmd := opcode i }

/-- Why a boot fails, as the host reports it (R258). -/
inductive BootError where
  | interfaceError
  | idError
  deriving DecidableEq, Repr

/-- A boot: what reached CERC, and the failure the host reports, none after a whole boot. -/
structure Boot where
  events : List HostEvent
  failure : Option BootError
  deriving DecidableEq, Repr

/-- A boot that stops after the reset of CERC, which is its first step. -/
def bootFails (e : BootError) : Boot := ⟨[.reset], some e⟩

/-- The boot sequence over what reads of the sensor answer (R283): reset CERC, then, on the expected
chip ID and after both calibration bursts, LOAD_CAL. On another chip ID, or when a read gives no
bytes, no LOAD_CAL is issued, and the reset has been done (R52, R291). The sensor reset and the
start-up delay between the reset and the chip ID act on the sensor alone. -/
def boot (operands : Ports) (img : Image) : Boot :=
  match readReg img chipIdReg with
  | none => bootFails .interfaceError
  | some id =>
    if id = chipId then
      match burstPort img calBlockA 26, burstPort img calBlockB 7 with
      | some ib, some ic =>
        ⟨[.reset, present .loadCal { operands with ib := ib, ic := ic }], none⟩
      | _, _ => bootFails .interfaceError
    else bootFails .idError

/-- What a boot presents to CERC. -/
def bootEvents (operands : Ports) (img : Image) : List HostEvent := (boot operands img).events

/-- IB with its first eight bytes from an ADC burst; DEC_RAW ignores the others (R125). -/
def withBurst (ib : Vector Byte 26) (adc : Vector Byte 8) : Vector Byte 26 :=
  Vector.ofFn fun i => if h : i.val < 8 then adc[i.val] else ib[i.val]

/-- MEASURE32 and MEASURE64 (R85, R287): DEC_RAW, then COMP_T, a pressure command and COMP_H with
the three samples the host saved from Y1, Y0 and Y2. -/
def measure (pressure : Instr) (operands : Ports) (adc : Vector Byte 8) : List HostEvent :=
  [ present .decRaw { operands with ib := withBurst operands.ib adc },
    present .compT { operands with ix := adc20 adc[3] adc[4] adc[5] },
    present pressure { operands with ix := adc20 adc[0] adc[1] adc[2] },
    present .compH { operands with ix := adc16 adc[6] adc[7] } ]

/-- MEASURE32 (R85). -/
def measure32 (operands : Ports) (adc : Vector Byte 8) : List HostEvent :=
  measure .compP32 operands adc

/-- MEASURE64 (R85). -/
def measure64 (operands : Ports) (adc : Vector Byte 8) : List HostEvent :=
  measure .compP64 operands adc

/-- The measurement sequence over what reads of the sensor answer (R287): one burst of the eight ADC
registers (R56, R295), then MEASURE32 or MEASURE64 with its bytes; no command when the burst gives no
bytes, as the host feeds no failed read to CERC (R258). -/
def measureFrom (pressure : Instr) (operands : Ports) (img : Image) : List HostEvent :=
  match burstPort img adcReadout 8 with
  | some adc => measure pressure operands adc
  | none => []

/-- The bus writes of ConfigureAll after ENC_CONFIG, in order: ctrl_hum, config, ctrl_meas (R286);
none when the latches hold no configuration. -/
def configWrites (s : State) : List (RegAddr × Byte) :=
  match s.status, s.latch.yb0, s.latch.yb1, s.latch.yb2 with
  | some .ok, some hum, some meas, some cfg => [(0xF2, hum), (0xF5, cfg), (0xF4, meas)]
  | _, _, _, _ => []

/-- The write-back after a field update of the register at address a: exactly when YW = 1 (R293). -/
def writeBack (a : RegAddr) (s : State) : List (RegAddr × Byte) :=
  match s.status, s.latch.yb0, s.latch.yw with
  | some .ok, some b, some true => [(a, b)]
  | _, _, _ => []

end Sys2Proof.Machine
end

