-- ==== Sys2Proof/Machine/Units.lean ====
section
/-! DEFINITION. The physical quantities result words stand for (spec/42_compensation.md rules R185,
R190, R194 and R198). No step reads this file. -/

namespace Sys2Proof.Machine

/-- Y0 of COMP_T, read as s32, is in hundredths of a degree Celsius (R185). -/
def celsius (y0 : Word) : ℚ := (y0.toInt : ℚ) / 100

/-- Y0 of COMP_P32, read as u32, is in pascals (R190). -/
def pascals32 (y0 : Word) : ℚ := (y0.toNat : ℚ)

/-- Y0 of COMP_P64, read as u32, is Q24.8 pascals (R194). -/
def pascals64 (y0 : Word) : ℚ := (y0.toNat : ℚ) / 256

/-- Y0 of COMP_H, read as u32, is Q22.10 %RH (R198). -/
def percentRh (y0 : Word) : ℚ := (y0.toNat : ℚ) / 1024

end Sys2Proof.Machine
end

