-- ==== Sys2Proof/Machine/Run.lean ====
section
/-! DEFINITION. Runs of a host command sequence and what is observed of them
(spec/60_exceptions.md rule R257, spec/10_state.md rules R26 and R36; DEDUCED, safe: assumption log,
entry 12). -/

namespace Sys2Proof.Machine

/-- What the host can read between two commands: CAL and TFINE are hidden (R26). -/
structure HostView where
  status : Option Status
  latch : Latches
  fault : Option FaultKind
  deriving DecidableEq, Repr

/-- The host's view of a state (R26). -/
def hostView (s : State) : HostView := ⟨s.status, s.latch, s.fault⟩

/-- How a run ends: the final or halted state, the views the host had after each command, and
whether the run ended successfully (R257). -/
structure RunEnd where
  final : State
  views : List HostView
  success : Bool
  deriving DecidableEq, Repr

/-- One command of a run. -/
def issue (s : State) (p : Ports) : Result := step { s with host := [.command p] }

/-- A run of a command sequence (R257): it ends successfully when all commands have completed and
FAULT is NONE; a command that faults, or one that a halted CERC does not accept, fails it. -/
def runCommands (s : State) : List Ports → RunEnd
  | [] => ⟨s, [], s.fault.isNone⟩
  | p :: ps =>
    match issue s p with
    | .next t =>
      match t.fault with
      | none =>
        let r := runCommands t ps
        { r with views := hostView t :: r.views }
      | some _ => ⟨t, [hostView t], false⟩
    | .fault _ => ⟨s, [], false⟩
    | .refused _ => ⟨s, [], false⟩

end Sys2Proof.Machine
end

