-- ==== Sys2Proof/Safety.lean ====
section
/-! DEFINITION. What counts as a good state and a good run of CERC, in the terms the statements
use. -/

namespace Sys2Proof.Machine

/-- CERC is halted exactly when FAULT is not NONE (R28). -/
abbrev State.halted (s : State) : Prop := s.fault ≠ none

/-- CAL holds ⊥ while CAL_VALID = 0 and values while it is 1 (R22). -/
abbrev State.calFlag (s : State) : Prop := s.calValid = s.cal.isSome

/-- TFINE holds ⊥ while TFINE_VALID = 0 and a value while it is 1 (R25). -/
abbrev State.tfineFlag (s : State) : Prop := s.tfineValid = s.tfine.isSome

/-- A fine temperature exists only after a calibration, since COMP_T needs CAL (R180). -/
abbrev State.tfineAfterCal (s : State) : Prop := s.tfineValid = true → s.calValid = true

/-- A result latch holds a value only after a command that completed with OK (R33). -/
abbrev State.latchesQuiet (s : State) : Prop := s.status ≠ some .ok → s.latch = Latches.bottom

/-- A halted CERC shows no status (R33). -/
abbrev State.haltedQuiet (s : State) : Prop := s.fault ≠ none → s.status = none

/-- After a completed command of the run, and unless a fault followed, STATUS is written (R30). -/
abbrev State.statusWritten (s : State) : Prop :=
  s.index ≠ 0 → s.fault = none → s.status ≠ none

/-- A packed coefficient lies in the range of its build (R164). -/
def packedInRange (signExtend : Bool) (x : Half) : Prop :=
  (signExtend = true → -2048 ≤ x.toInt ∧ x.toInt ≤ 2047) ∧ (signExtend = false → x.toNat ≤ 4095)

/-- H4 and H5, where CAL holds values, lie in the range of the build (R164). -/
def State.packedRange (s : State) : Prop :=
  ∀ c, s.cal = some c → packedInRange s.params.h45SignExtend c.h4 ∧
    packedInRange s.params.h45SignExtend c.h5

/-- The value is one of the format. -/
def FloatVal.isOf (fmt : FloatFmt) : FloatVal → Bool
  | .b32 _ => fmt == .binary32
  | .b64 _ => fmt == .binary64

/-- YF, where it holds a value, holds one of FLOAT_FMT (R32). -/
def State.yfOfFormat (s : State) : Prop :=
  ∀ v, s.latch.yf = some v → v.isOf s.params.floatFmt = true

/-- The invariant every step keeps. -/
structure State.Inv (s : State) : Prop where
  calFlag : s.calFlag
  tfineFlag : s.tfineFlag
  tfineAfterCal : s.tfineAfterCal
  latchesQuiet : s.latchesQuiet
  haltedQuiet : s.haltedQuiet
  statusWritten : s.statusWritten
  packedRange : s.packedRange
  yfOfFormat : s.yfOfFormat

end Sys2Proof.Machine
end

