-- ==== Sys2Proof/Certificates/Slice0/Obligations.lean ====
section
/-! DEFINITION. The statements about CERC. Expected results are written here over Nat, Int and single
bits, not with the functions the meanings use, so that a statement can be wrong of the model. -/

namespace Sys2Proof.Claims

open Sys2Proof.Machine

/-! ### How a command ends (R33, R251, R253) -/

/-- s after a completion with OK that writes exactly these latches and no other state. -/
def okEnd (s : State) (l : Latches) : State :=
  { s with status := some .ok, latch := l, index := s.index + 1 }

/-- s after a parameter error (R251). -/
def paramErrorEnd (s : State) : State :=
  { s with status := some .paramError, latch := Latches.bottom, index := s.index + 1 }

/-- s after a fault (R253). -/
def faultEnd (s : State) (k : FaultKind) : State :=
  { s with fault := some k, status := none, latch := Latches.bottom }

/-- Only Y0 holds a value. -/
def y0Only (y : Word) : Latches := { Latches.bottom with y0 := some y }

/-! ### Typed arithmetic over Int (R15, R16) -/

/-- Reduction into s32. -/
def s32 (x : Int) : Int := x.bmod (2 ^ 32)

/-- Reduction into s64. -/
def s64 (x : Int) : Int := x.bmod (2 ^ 64)

/-- Reduction into u32. -/
def u32 (x : Int) : Int := x % 2 ^ 32

/-- floor(x / 2^k): >> on a signed type, and on the non-negative values of u32. -/
def shr (x : Int) (k : Nat) : Int := x / 2 ^ k

/-- The temperature scaling primitive (R183). -/
def tscInt (m : TempScaling) (x : Int) (k : Nat) : Int :=
  match m with
  | .floor => shr x k
  | .trunc => x.tdiv (2 ^ k)

/-! ### The compensation formulas over Int, each line reduced as its type says -/

/-- fine of R184. -/
def fineSpec (m : TempScaling) (c : Cal) (adc : Int) : Int :=
  let t1 : Int := c.t1.toNat
  let var1 := tscInt m (s32 (s32 (tscInt m adc 3 - s32 (t1 * 2)) * c.t2.toInt)) 11
  let d := s32 (tscInt m adc 4 - t1)
  let var2 := tscInt m (s32 (tscInt m (s32 (d * d)) 12 * c.t3.toInt)) 14
  s32 (var1 + var2)

/-- T of R184. -/
def temperatureSpec (m : TempScaling) (fine : Int) : Int :=
  tscInt m (s32 (s32 (fine * 5) + 128)) 8

/-- The denominator of the 32-bit path: var1 at the guard of R187. -/
def p32DenominatorSpec (c : Cal) (tfine : Int) : Int :=
  let p1 : Int := c.p1.toNat
  let v1 := s32 (shr tfine 1 - 64000)
  let q := shr (s32 (shr v1 2 * shr v1 2)) 13
  let v1 := shr (s32 (shr (s32 (c.p3.toInt * q)) 3 + shr (s32 (c.p2.toInt * v1)) 1)) 18
  shr (s32 (s32 (32768 + v1) * p1)) 15

/-- Y0 of R188, with the guard of R187 and the two branches of R189. -/
def pressure32Spec (c : Cal) (tfine adc : Int) : Int :=
  let v1 := s32 (shr tfine 1 - 64000)
  let v2 := s32 (shr (s32 (shr v1 2 * shr v1 2)) 11 * c.p6.toInt)
  let v2 := s32 (v2 + s32 (s32 (v1 * c.p5.toInt) * 2))
  let v2 := s32 (shr v2 2 + s32 (c.p4.toInt * 2 ^ 16))
  let d := p32DenominatorSpec c tfine
  if d = 0 then 0
  else
    let p := u32 (u32 (u32 (s32 (1048576 - adc)) - u32 (shr v2 12)) * 3125)
    let p := if p < 0x80000000 then u32 (p * 2) / u32 d else u32 (p / u32 d * 2)
    let w1 := shr (s32 (c.p9.toInt * s32 (shr (u32 (shr p 3 * shr p 3)) 13))) 12
    let w2 := shr (s32 (s32 (shr p 2) * c.p8.toInt)) 13
    u32 (s32 (s32 p + shr (s32 (s32 (w1 + w2) + c.p7.toInt)) 4))

/-- The denominator of the 64-bit path: var1 at the guard of R192. -/
def p64DenominatorSpec (c : Cal) (tfine : Int) : Int :=
  let p1 : Int := c.p1.toNat
  let v1 := s64 (tfine - 128000)
  let v1 := s64 (shr (s64 (s64 (v1 * v1) * c.p3.toInt)) 8 + s64 (s64 (v1 * c.p2.toInt) * 2 ^ 12))
  shr (s64 (s64 (2 ^ 47 + v1) * p1)) 33

/-- Y0 of R193, with the guard of R192 and the wrapping quotient of R195. -/
def pressure64Spec (c : Cal) (tfine adc : Int) : Int :=
  let v1 := s64 (tfine - 128000)
  let v2 := s64 (s64 (v1 * v1) * c.p6.toInt)
  let v2 := s64 (v2 + s64 (s64 (v1 * c.p5.toInt) * 2 ^ 17))
  let v2 := s64 (v2 + s64 (c.p4.toInt * 2 ^ 35))
  let d := p64DenominatorSpec c tfine
  if d = 0 then 0
  else
    let p := s64 (1048576 - adc)
    let p := s64 ((s64 (s64 (s64 (p * 2 ^ 31) - v2) * 3125)).tdiv d)
    let w1 := shr (s64 (s64 (c.p9.toInt * shr p 13) * shr p 13)) 25
    let w2 := shr (s64 (c.p8.toInt * p)) 19
    u32 (s64 (shr (s64 (s64 (p + w1) + w2)) 8 + s64 (c.p7.toInt * 2 ^ 4)))

/-- Y0 of R197, with the clamp of R196. -/
def humiditySpec (k : Cal) (tfine adc : Int) : Int :=
  let h1 : Int := k.h1.toNat
  let h3 : Int := k.h3.toNat
  let v := s32 (tfine - 76800)
  let a := shr (s32 (s32 (s32 (s32 (adc * 2 ^ 14) - s32 (k.h4.toInt * 2 ^ 20))
    - s32 (k.h5.toInt * v)) + 16384)) 15
  let b := shr (s32 (v * k.h6.toInt)) 10
  let c := s32 (shr (s32 (v * h3)) 11 + 32768)
  let d := s32 (shr (s32 (b * c)) 10 + 2097152)
  let e := shr (s32 (s32 (d * k.h2.toInt) + 8192)) 14
  let v := s32 (a * e)
  let v := s32 (v - shr (s32 (shr (s32 (shr v 15 * shr v 15)) 7 * h1)) 4)
  shr (max 0 (min v 419430400)) 12

/-! ### The tables of the spec -/

/-- The reserved opcodes of R82. -/
def isReserved (op : Nat) : Prop :=
  op = 0x00 ∨ (0x06 ≤ op ∧ op ≤ 0x0F) ∨ (0x17 ≤ op ∧ op ≤ 0x1F) ∨ (0x21 ≤ op ∧ op ≤ 0x2F) ∨
  (0x34 ≤ op ∧ op ≤ 0x3F) ∨ (0x44 ≤ op ∧ op ≤ 0x47) ∨ (0x4C ≤ op ∧ op ≤ 0xFF)

/-- The opcode is that of a pressure path the build leaves out (R82). -/
def isLeftOut (v : PressVariants) (op : Nat) : Prop :=
  (op = 0x31 ∧ v = .p64Only) ∨ (op = 0x32 ∧ v = .p32Only)

/-- The command is one of a pressure path the build leaves out (R252). -/
def leftOut (v : PressVariants) (i : Instr) : Prop :=
  (i = .compP32 ∧ v = .p64Only) ∨ (i = .compP64 ∧ v = .p32Only)

/-- osrs codes (R94). -/
def osrsSet (n : Nat) : Prop := n ≤ 5

/-- mode codes (R94). -/
def modeSet (n : Nat) : Prop := n = 0 ∨ n = 1 ∨ n = 3

/-- Every field of ICFG in its encode-side legal set (R94). -/
def icfgInSets (c : Icfg) : Prop :=
  osrsSet c.osrsT.toNat ∧ osrsSet c.osrsP.toNat ∧ osrsSet c.osrsH.toNat ∧ modeSet c.mode.toNat ∧
  c.tSb.toNat ≤ 7 ∧ c.filter.toNat ≤ 4 ∧ c.spi3w.toNat ≤ 1

/-- The UPD_* commands of R96: field [hi:lo] and legal set. -/
inductive Updates : Instr → Nat → Nat → (Nat → Prop) → Prop where
  | osrsH : Updates .updOsrsH 2 0 osrsSet
  | osrsT : Updates .updOsrsT 7 5 osrsSet
  | osrsP : Updates .updOsrsP 4 2 osrsSet
  | mode : Updates .updMode 1 0 modeSet
  | tSb : Updates .updTSb 7 5 (fun n => n ≤ 7)
  | filter : Updates .updFilter 4 2 (fun n => n ≤ 4)
  | spi3w : Updates .updSpi3w 0 0 (fun n => n ≤ 1)

/-- v[hi:lo] (R14). -/
def bitsOf (v : Byte) (hi lo : Nat) : Nat := v.toNat / 2 ^ lo % 2 ^ (hi - lo + 1)

/-- The causes of a parameter error, the table of R251. -/
def paramCause (i : Instr) (p : Ports) : Prop :=
  match i with
  | .encConfig => ¬ icfgInSets p.icfg
  | .updOsrsH | .updOsrsT | .updOsrsP => 5 < p.iv.toNat
  | .updMode => ¬ modeSet p.iv.toNat
  | .updTSb => 7 < p.iv.toNat
  | .updFilter => 4 < p.iv.toNat
  | .updSpi3w => 1 < p.iv.toNat
  | .compT | .compP32 | .compP64 => 0xFFFFF < p.ix.toNat
  | .compH => 0xFFFF < p.ix.toNat
  | .decCtrlHum | .decCtrlMeas | .decConfig | .decRaw | .loadCal => False
  | .splitT | .splitP32 | .splitP64 | .splitH | .fltT | .fltP32 | .fltP64 | .fltH => False

/-- The fault CERC's state raises, the table of R253 in the order of R255. -/
def stateFault (i : Instr) (s : State) : Option FaultKind :=
  match i with
  | .loadCal => if s.calValid then some .calReload else none
  | .compT => if s.calValid then none else some .calUnset
  | .compP32 | .compP64 | .compH =>
    if s.calValid then (if s.tfineValid then none else some .tfineUnset) else some .calUnset
  | .encConfig | .decCtrlHum | .decCtrlMeas | .decConfig | .decRaw => none
  | .updOsrsH | .updOsrsT | .updOsrsP | .updMode | .updTSb | .updFilter | .updSpi3w => none
  | .splitT | .splitP32 | .splitP64 | .splitH | .fltT | .fltP32 | .fltP64 | .fltH => none

/-- The codec commands (R81). -/
def isCodec (i : Instr) : Prop :=
  i ∈ [.encConfig, .decCtrlHum, .decCtrlMeas, .decConfig, .decRaw, .updOsrsH, .updOsrsT,
    .updOsrsP, .updMode, .updTSb, .updFilter, .updSpi3w]

/-- The conversion commands (R81). -/
def isConversion (i : Instr) : Prop :=
  i ∈ [.splitT, .splitP32, .splitP64, .splitH, .fltT, .fltP32, .fltP64, .fltH]

/-- The compensation commands (R81). -/
def isCompensation (i : Instr) : Prop := i ∈ [.compT, .compP32, .compP64, .compH]

/-- The latches in the column "writes (on OK)" of R81, one test per latch. -/
def writesExactly (i : Instr) (l : Latches) : Prop :=
  (l.y0.isSome ↔ i ∈ [.decCtrlHum, .decCtrlMeas, .decConfig, .decRaw, .compT, .compP32, .compP64,
    .compH, .splitT, .splitP32, .splitP64, .splitH]) ∧
  (l.y1.isSome ↔ i ∈ [.decCtrlMeas, .decConfig, .decRaw, .splitT, .splitP32, .splitP64, .splitH]) ∧
  (l.y2.isSome ↔ i ∈ [.decCtrlMeas, .decConfig, .decRaw]) ∧
  (l.yb0.isSome ↔ i ∈ [.encConfig, .updOsrsH, .updOsrsT, .updOsrsP, .updMode, .updTSb, .updFilter,
    .updSpi3w]) ∧
  (l.yb1.isSome ↔ i ∈ [.encConfig]) ∧
  (l.yb2.isSome ↔ i ∈ [.encConfig]) ∧
  (l.yw.isSome ↔ i ∈ [.updOsrsH, .updOsrsT, .updOsrsP, .updMode, .updTSb, .updFilter, .updSpi3w]) ∧
  (l.yv.isSome ↔ i ∈ [.decCtrlHum, .decCtrlMeas, .decConfig]) ∧
  (l.yf.isSome ↔ i ∈ [.fltT, .fltP32, .fltP64, .fltH])

/-- A triple of YV bits as a number, bit 0 last. -/
def yvNat (b2 b1 b0 : Prop) [Decidable b2] [Decidable b1] [Decidable b0] : Nat :=
  (if b2 then 4 else 0) + (if b1 then 2 else 0) + (if b0 then 1 else 0)

/-! ### Calibration bytes (R58, R99, R100) -/

/-- The unsigned little-endian pair. -/
def leU (lo hi : Byte) : Nat := lo.toNat + 256 * hi.toNat

/-- The signed little-endian pair. -/
def leS (lo hi : Byte) : Int := Int.bmod (leU lo hi) (2 ^ 16)

/-- A packed 12-bit number v, read as H45_SIGN_EXTEND says. -/
def packedSpec (signExtend : Bool) (v : Nat) : Int :=
  if signExtend then Int.bmod v (2 ^ 12) else v

/-- The coefficients c are those of the blocks ib and ic under the parameters cfg (R99, R161). -/
structure Parsed (cfg : Config) (ib : Vector Byte 26) (ic : Vector Byte 7) (c : Cal) : Prop where
  t1 : c.t1.toNat = leU ib[0] ib[1]
  t2 : c.t2.toInt = leS ib[2] ib[3]
  t3 : c.t3.toInt = leS ib[4] ib[5]
  p1 : c.p1.toNat = leU ib[6] ib[7]
  p2 : c.p2.toInt = leS ib[8] ib[9]
  p3 : c.p3.toInt = leS ib[10] ib[11]
  p4 : c.p4.toInt = leS ib[12] ib[13]
  p5 : c.p5.toInt = leS ib[14] ib[15]
  p6 : c.p6.toInt = leS ib[16] ib[17]
  p7 : c.p7.toInt = leS ib[18] ib[19]
  p8 : c.p8.toInt = leS ib[20] ib[21]
  p9 : c.p9.toInt = leS ib[22] ib[23]
  h1 : c.h1 = match cfg.h1Index with
    | .i25 => ib[25]
    | .i24 => ib[24]
  h2 : c.h2.toInt = leS ic[0] ic[1]
  h3 : c.h3 = ic[2]
  h4 : c.h4.toInt = packedSpec cfg.h45SignExtend (ic[3].toNat * 16 + ic[4].toNat % 16)
  h5 : c.h5.toInt = packedSpec cfg.h45SignExtend (ic[5].toNat * 16 + ic[4].toNat / 16)
  h6 : c.h6.toInt = Int.bmod ic[6].toNat (2 ^ 8)

/-! ### The sensor's registers (R50) -/

/-- Reads of the n registers from address a on answer the bytes of v, in order. -/
def registersHold {n : Nat} (img : Image) (a : Nat) (v : Vector Byte n) : Prop :=
  ∀ (k : Nat) (h : k < n) (b : RegAddr), b.toNat = a + k → readReg img b = some v[k]

/-! ### Rescaling and floats (R8, R9, R226) -/

/-- P64_RESCALE on numbers. -/
def p64RescaleSpec (r : Rescale) (q : Word) : Nat :=
  match r with
  | .exactFloor => q.toNat * 100 / 256
  | .other n => (Config.otherRescale n q).toNat

/-- H_RESCALE on numbers. -/
def hRescaleSpec (r : Rescale) (h : Word) : Nat :=
  match r with
  | .exactFloor => h.toNat * 1000 / 1024
  | .other n => (Config.otherRescale n h).toNat

/-- The integer x and the scale of the table of R225 for a FLT_* command. -/
def floatOperands (s : State) : Instr → Option (Int × Nat)
  | .fltT => some (s.ports.ix.toInt, 100)
  | .fltP32 => some (s.ports.ix.toNat, 100)
  | .fltP64 => some (p64RescaleSpec s.params.p64Rescale s.ports.ix, 10000)
  | .fltH => some (hRescaleSpec s.params.hRescale s.ports.ix, 1000)
  | _ => none

/-- The largest finite magnitude of a format plus one: the bits of infinity. -/
def infinityMag (fmt : FloatFmt) : Nat :=
  match fmt with
  | .binary32 => 0x7F800000
  | .binary64 => 0x7FF0000000000000

/-- The value of a finite magnitude as IEEE 754 binary interchange reads its bits. -/
def magValue (fmt : FloatFmt) (mag : Nat) : ℚ :=
  match fmt with
  | .binary32 =>
    if mag / 2 ^ 23 = 0 then (mag : ℚ) * (2 : ℚ) ^ (-149 : Int)
    else (2 ^ 23 + (mag % 2 ^ 23 : Nat) : ℚ) * (2 : ℚ) ^ ((mag / 2 ^ 23 : Nat) - 150 : Int)
  | .binary64 =>
    if mag / 2 ^ 52 = 0 then (mag : ℚ) * (2 : ℚ) ^ (-1074 : Int)
    else (2 ^ 52 + (mag % 2 ^ 52 : Nat) : ℚ) * (2 : ℚ) ^ ((mag / 2 ^ 52 : Nat) - 1075 : Int)

/-- mag is the finite magnitude nearest to q, a tie going to the even one (R226). -/
def NearestEven (fmt : FloatFmt) (q : ℚ) (mag : Nat) : Prop :=
  mag < infinityMag fmt ∧
  ∀ other, other < infinityMag fmt →
    |magValue fmt mag - q| ≤ |magValue fmt other - q| ∧
    (|magValue fmt mag - q| = |magValue fmt other - q| → other = mag ∨ mag % 2 = 0)

/-- The float is the magnitude's, negative or not. -/
def floatIs (fmt : FloatFmt) (v : FloatVal) (neg : Bool) (mag : Nat) : Prop :=
  match fmt with
  | .binary32 => ∃ b, v = .b32 b ∧ b.toNat = (if neg then 2 ^ 31 else 0) + mag
  | .binary64 => ∃ b, v = .b64 b ∧ b.toNat = (if neg then 2 ^ 63 else 0) + mag

end Sys2Proof.Claims

open Sys2Proof Sys2Proof.Machine Sys2Proof.Claims

/-! ### Encoding -/

/-- R81, R83: the encoding of a command that is built in decodes to it, and what follows its one
byte is left. -/
def Obligations.DecodeOfEncode : Prop :=
  ∀ (v : PressVariants) (i : Instr) (rest : List Byte), i.wellFormed v = true →
    decode v (encode i ++ rest) = .ok (i, rest)

/-- R81: opcodes of each family, read from the command map. -/
def Obligations.OpcodeWordsDecode : Prop :=
  decodeCmd .both 0x01#8 = .ok .encConfig ∧ decodeCmd .both 0x05#8 = .ok .decRaw ∧
  decodeCmd .both 0x16#8 = .ok .updSpi3w ∧ decodeCmd .both 0x20#8 = .ok .loadCal ∧
  decodeCmd .both 0x32#8 = .ok .compP64 ∧ decodeCmd .p32Only 0x31#8 = .ok .compP32 ∧
  decodeCmd .both 0x43#8 = .ok .splitH ∧ decodeCmd .both 0x48#8 = .ok .fltT

/-- R82, R252: an opcode is reserved exactly when it is no command's; a reserved opcode, or that of
a path that is not built in, makes the command fault with ILLEGAL_CMD whatever the ports hold. -/
def Obligations.ReservedOpcodeFaults : Prop :=
  (∀ op : Byte, isReserved op.toNat ↔ ¬ ∃ i, opcode i = op) ∧
  ∀ (s : State) (p : Ports) (rest : List HostEvent), s.host = .command p :: rest →
    s.fault = none → (isReserved p.cmd.toNat ∨ isLeftOut s.params.press p.cmd.toNat) →
    step s = .next (faultEnd { s with ports := p, host := rest } .illegalCmd)

/-- R2, R31, R67: a step samples the ports of the command the host presents next and runs the
decoded command; there is nothing around it. That the presented commands and the sampled ports are
fields of State is the model's choice (assumption log, entries 1 and 2). -/
def Obligations.StepRunsDecodedCommand : Prop :=
  ∀ (s : State) (p : Ports) (rest : List HostEvent) (i : Instr), s.host = .command p :: rest →
    decode s.params.press [p.cmd] = .ok (i, []) →
    step s = exec i { s with ports := p, host := rest }

/-! ### Reset, faults, the halted state -/

/-- R38. -/
def Obligations.ResetStateValues : Prop :=
  State.reset.cal = none ∧ State.reset.calValid = false ∧ State.reset.tfine = none ∧
  State.reset.tfineValid = false ∧ State.reset.status = none ∧
  State.reset.latch = ⟨none, none, none, none, none, none, none, none, none⟩ ∧
  State.reset.fault = none

/-- R280: reset, from every state, puts every piece of state to its value of R38; no command does
(none clears FAULT, CAL_VALID or TFINE_VALID). -/
def Obligations.ResetEventClearsEverything : Prop :=
  (∀ (s : State) (rest : List HostEvent), s.host = .reset :: rest →
    ∃ t, step s = .next t ∧ t.cal = none ∧ t.calValid = false ∧ t.tfine = none ∧
      t.tfineValid = false ∧ t.status = none ∧ t.latch = Latches.bottom ∧ t.fault = none ∧
      t.params = s.params ∧ t.host = rest) ∧
  ∀ (s t : State) (p : Ports) (rest : List HostEvent), s.host = .command p :: rest →
    step s = .next t →
    (s.calValid = true → t.calValid = true) ∧ (s.tfineValid = true → t.tfineValid = true) ∧
    s.fault = none

/-- R28: a halted CERC has no step for any command, and a run that begins halted or ends halted is
no success. -/
def Obligations.HaltedAcceptsNoCommand : Prop :=
  (∀ (s : State) (k : FaultKind), s.fault = some k →
    (∀ i, exec i s = .fault (.halted k)) ∧
    (∀ p rest, s.host = .command p :: rest → step s = .fault (.halted k)) ∧
    ∀ ps, (runCommands s ps).success = false) ∧
  ∀ (s : State) (ps : List Ports), (runCommands s ps).success = true →
    (runCommands s ps).final.fault = none

/-- R256: a fault of a presented command, reserved opcodes among them, is precise: nothing but FAULT,
STATUS and the latches changes; the state after it has no step for a command and begins no run that
succeeds; a reset leads out. -/
def Obligations.FaultIsPrecise : Prop :=
  ∀ (s t : State) (k : FaultKind) (p : Ports) (rest : List HostEvent),
    s.host = .command p :: rest → step s = .next t → t.fault = some k →
    t = faultEnd { s with ports := p, host := rest } k ∧
    (∀ p' rest', step { t with host := .command p' :: rest' } = .fault (.halted k)) ∧
    (∀ ps, (runCommands t ps).success = false) ∧
    ∀ rest', ∃ u, step { t with host := .reset :: rest' } = .next u ∧ u.fault = none

/-- R250, R251, R253, R255: the outcome of every command in a CERC that is not halted, in the order
of priority of R255. -/
def Obligations.CommandOutcomePriority : Prop :=
  ∀ (i : Instr) (s : State), s.calFlag → s.tfineFlag → s.fault = none →
    (leftOut s.params.press i → exec i s = .next (faultEnd s .illegalCmd)) ∧
    (¬ leftOut s.params.press i → paramCause i s.ports → exec i s = .next (paramErrorEnd s)) ∧
    (¬ leftOut s.params.press i → ¬ paramCause i s.ports →
      (∀ k, stateFault i s = some k → exec i s = .next (faultEnd s k)) ∧
      (stateFault i s = none → ∃ t, exec i s = .next t ∧ t.status = some .ok ∧ t.fault = none ∧
        t.index = s.index + 1))

/-! ### Invariants and frames -/

/-- R22, R25, R30, R33, R164: the invariant holds after reset. -/
def Obligations.InvAtReset : Prop := State.reset.Inv

/-- R22, R25, R30, R33, R164, R180: every step, from every state that meets the invariant, keeps
it. -/
def Obligations.StepKeepsInv : Prop :=
  ∀ s t : State, s.Inv → step s = .next t → t.Inv

/-- R33: a completion with OK writes STATUS and exactly the latches its rule names; a parameter
error and a fault leave every latch ⊥ and change only what the rule says. -/
def Obligations.LatchWriteDiscipline : Prop :=
  ∀ (i : Instr) (s t : State), exec i s = .next t →
    (t.status = some .ok → t.fault = none ∧ writesExactly i t.latch) ∧
    (t.status = some .paramError → t = paramErrorEnd s) ∧
    (t.status = none → ∃ k, t = faultEnd s k)

/-- The frame of every command: the parameters, the ports and the host's further events stay; the
run index moves only with a completion (R20, R36). These four are the model's own fields (assumption
log, entries 1 to 3). -/
def Obligations.CommandFrame : Prop :=
  ∀ (i : Instr) (s t : State), exec i s = .next t →
    t.params = s.params ∧ t.ports = s.ports ∧ t.host = s.host ∧
    t.index = (if t.fault = none then s.index + 1 else s.index)

/-- R22, R23: only LOAD_CAL writes CAL and CAL_VALID, all of it in one step and only while
CAL_VALID = 0; a set CAL does not change but by a reset, which clears both; CAL_VALID = 0 keeps CAL
at ⊥. -/
def Obligations.CalWrittenOnlyByLoadCal : Prop :=
  (State.reset.calValid = false ∧ State.reset.calFlag) ∧
  (∀ (s : State) (rest : List HostEvent), s.host = .reset :: rest →
    ∃ t, step s = .next t ∧ t.calValid = false ∧ t.cal = none) ∧
  ∀ (i : Instr) (s t : State), exec i s = .next t →
    (¬ (t.cal = s.cal ∧ t.calValid = s.calValid) →
      i = .loadCal ∧ s.calValid = false ∧ t.calValid = true ∧ t.cal.isSome = true ∧
      t.status = some .ok) ∧
    (i = .loadCal → t.status = some .ok → t.calValid = true) ∧
    (s.calValid = true → t.cal = s.cal ∧ t.calValid = true) ∧
    (s.calFlag → t.calFlag)

/-- R24, R25: only COMP_T writes TFINE and TFINE_VALID, and every COMP_T that completes with OK
writes them (a parameter error changes neither, R33: assumption log, entry 8). -/
def Obligations.TfineWrittenOnlyByCompT : Prop :=
  (State.reset.tfineValid = false ∧ State.reset.tfineFlag) ∧
  ∀ (i : Instr) (s t : State), exec i s = .next t →
    (¬ (i = .compT ∧ t.status = some .ok) → t.tfine = s.tfine ∧ t.tfineValid = s.tfineValid) ∧
    (i = .compT → t.status = some .ok → t.tfineValid = true ∧ t.tfine.isSome = true) ∧
    (s.tfineValid = true → t.tfineValid = true) ∧
    (s.tfineFlag → t.tfineFlag)

/-- R120: every codec command completes in every state of CERC that is not halted, its latches and
STATUS depend on the ports alone, and it changes no CAL, TFINE or flag. -/
def Obligations.CodecIsStateless : Prop :=
  ∀ (i : Instr) (s s' : State), isCodec i → s.fault = none → s'.fault = none →
    s.ports = s'.ports →
    ∃ t t', exec i s = .next t ∧ exec i s' = .next t' ∧ t.status = t'.status ∧
      t.latch = t'.latch ∧ t = { s with status := t.status, latch := t.latch, index := s.index + 1 }

/-- R220: every conversion command completes with OK in every state that is not halted, and its
latches depend on IX and the parameters alone. -/
def Obligations.ConversionIsStateless : Prop :=
  ∀ (i : Instr) (s s' : State), isConversion i → s.fault = none → s'.fault = none →
    s.ports.ix = s'.ports.ix → s.params = s'.params →
    ∃ l, exec i s = .next (okEnd s l) ∧ exec i s' = .next (okEnd s' l) ∧ writesExactly i l

/-- R199, R200: STATUS and the latches a compensation command leaves, and the fine temperature it
leaves, are functions of IX, CAL, TFINE, their flags and the parameters; the pressure and humidity
results do depend on TFINE. -/
def Obligations.CompensationDependsOnlyOnInputs : Prop :=
  (∀ (i : Instr) (s s' t t' : State), isCompensation i → s.ports.ix = s'.ports.ix →
    s.params = s'.params → s.cal = s'.cal → s.calValid = s'.calValid → s.tfine = s'.tfine →
    s.tfineValid = s'.tfineValid → exec i s = .next t → exec i s' = .next t' →
    t.status = t'.status ∧ t.latch = t'.latch ∧ t.fault = t'.fault ∧ t.tfine = t'.tfine) ∧
  ∀ i ∈ [Instr.compP32, Instr.compP64, Instr.compH], ∃ (s t t' : State) (f : Word),
    exec i s = .next t ∧ exec i { s with tfine := some f } = .next t' ∧
    t.status = some .ok ∧ t'.status = some .ok ∧ t.latch.y0 ≠ t'.latch.y0

/-! ### The register codec -/

/-- R121. -/
def Obligations.EncConfigResult : Prop :=
  opcode .encConfig = 0x01#8 ∧ ∀ s : State, s.fault = none →
    (icfgInSets s.ports.icfg → ∃ hum meas cfg : Byte,
      exec .encConfig s = .next (okEnd s { Latches.bottom with
        yb0 := some hum, yb1 := some meas, yb2 := some cfg }) ∧
      hum.toNat = s.ports.icfg.osrsH.toNat ∧
      meas.toNat = s.ports.icfg.osrsT.toNat * 32 + s.ports.icfg.osrsP.toNat * 4
        + s.ports.icfg.mode.toNat ∧
      cfg.toNat = s.ports.icfg.tSb.toNat * 32 + s.ports.icfg.filter.toNat * 4
        + s.ports.icfg.spi3w.toNat) ∧
    (¬ icfgInSets s.ports.icfg → exec .encConfig s = .next (paramErrorEnd s))

/-- R122. -/
def Obligations.DecCtrlHumResult : Prop :=
  opcode .decCtrlHum = 0x02#8 ∧ ∀ s : State, s.fault = none → ∃ (y0 : Word) (yv : BitVec 3),
    exec .decCtrlHum s = .next (okEnd s { Latches.bottom with y0 := some y0, yv := some yv }) ∧
    y0.toNat = bitsOf s.ports.ir 2 0 ∧
    yv.toNat = yvNat False False (bitsOf s.ports.ir 2 0 ≤ 5)

/-- R123. -/
def Obligations.DecCtrlMeasResult : Prop :=
  opcode .decCtrlMeas = 0x03#8 ∧ ∀ s : State, s.fault = none → ∃ (y0 y1 y2 : Word) (yv : BitVec 3),
    exec .decCtrlMeas s = .next (okEnd s { Latches.bottom with
      y0 := some y0, y1 := some y1, y2 := some y2, yv := some yv }) ∧
    y0.toNat = bitsOf s.ports.ir 7 5 ∧ y1.toNat = bitsOf s.ports.ir 4 2 ∧
    y2.toNat = bitsOf s.ports.ir 1 0 ∧
    yv.toNat = yvNat True (bitsOf s.ports.ir 4 2 ≤ 5) (bitsOf s.ports.ir 7 5 ≤ 5)

/-- R124. -/
def Obligations.DecConfigResult : Prop :=
  opcode .decConfig = 0x04#8 ∧ ∀ s : State, s.fault = none → ∃ (y0 y1 y2 : Word) (yv : BitVec 3),
    exec .decConfig s = .next (okEnd s { Latches.bottom with
      y0 := some y0, y1 := some y1, y2 := some y2, yv := some yv }) ∧
    y0.toNat = bitsOf s.ports.ir 7 5 ∧ y1.toNat = bitsOf s.ports.ir 4 2 ∧
    y2.toNat = bitsOf s.ports.ir 0 0 ∧
    yv.toNat = yvNat True (bitsOf s.ports.ir 4 2 ≤ 4) True

/-- R125, R97, R98: the samples, and that they lie in the range COMP_* accepts. -/
def Obligations.DecRawResult : Prop :=
  opcode .decRaw = 0x05#8 ∧ ∀ s : State, s.fault = none → ∃ y0 y1 y2 : Word,
    exec .decRaw s = .next (okEnd s { Latches.bottom with
      y0 := some y0, y1 := some y1, y2 := some y2 }) ∧
    y0.toNat = s.ports.ib[0].toNat * 4096 + s.ports.ib[1].toNat * 16 + s.ports.ib[2].toNat / 16 ∧
    y1.toNat = s.ports.ib[3].toNat * 4096 + s.ports.ib[4].toNat * 16 + s.ports.ib[5].toNat / 16 ∧
    y2.toNat = s.ports.ib[6].toNat * 256 + s.ports.ib[7].toNat ∧
    y0.toNat ≤ 0xFFFFF ∧ y1.toNat ≤ 0xFFFFF ∧ y2.toNat ≤ 0xFFFF

/-- R126 to R133: bit by bit, the field takes the code and every other bit is kept from IR; YW is 1
exactly when the field's bits differ from IV, which is when YB0 differs from IR. -/
def Obligations.FieldUpdateResult : Prop :=
  (opcode .updOsrsH = 0x10#8 ∧ opcode .updOsrsT = 0x11#8 ∧ opcode .updOsrsP = 0x12#8 ∧
    opcode .updMode = 0x13#8 ∧ opcode .updTSb = 0x14#8 ∧ opcode .updFilter = 0x15#8 ∧
    opcode .updSpi3w = 0x16#8) ∧
  ∀ (i : Instr) (hi lo : Nat) (legal : Nat → Prop) (s : State), Updates i hi lo legal →
    s.fault = none →
    (legal s.ports.iv.toNat → ∃ (b : Byte) (w : Bool),
      exec i s = .next (okEnd s { Latches.bottom with yb0 := some b, yw := some w }) ∧
      (∀ n, n < 8 → b.getLsbD n =
        if lo ≤ n ∧ n ≤ hi then s.ports.iv.getLsbD (n - lo) else s.ports.ir.getLsbD n) ∧
      (w = true ↔ bitsOf s.ports.ir hi lo ≠ s.ports.iv.toNat) ∧
      (w = false ↔ b = s.ports.ir)) ∧
    (¬ legal s.ports.iv.toNat → exec i s = .next (paramErrorEnd s))

/-- R134: encode a legal configuration, and decode the three bytes in any three states. -/
def Obligations.EncodeThenDecodeRegisters : Prop :=
  ∀ s t s1 s2 s3 : State, icfgInSets s.ports.icfg → exec .encConfig s = .next t →
    s1.fault = none → s2.fault = none → s3.fault = none →
    t.latch.yb0 = some s1.ports.ir → t.latch.yb1 = some s2.ports.ir →
    t.latch.yb2 = some s3.ports.ir →
    let c := s.ports.icfg
    exec .decCtrlHum s1 = .next (okEnd s1 { Latches.bottom with
      y0 := some (BitVec.ofNat 32 c.osrsH.toNat), yv := some 0b001#3 }) ∧
    exec .decCtrlMeas s2 = .next (okEnd s2 { Latches.bottom with
      y0 := some (BitVec.ofNat 32 c.osrsT.toNat), y1 := some (BitVec.ofNat 32 c.osrsP.toNat),
      y2 := some (BitVec.ofNat 32 c.mode.toNat), yv := some 0b111#3 }) ∧
    exec .decConfig s3 = .next (okEnd s3 { Latches.bottom with
      y0 := some (BitVec.ofNat 32 c.tSb.toNat), y1 := some (BitVec.ofNat 32 c.filter.toNat),
      y2 := some (BitVec.ofNat 32 c.spi3w.toNat), yv := some 0b111#3 })

/-- R135: decode a byte triple in any three states, and encode the codes again: when every code is
recognised (every meaningful YV bit is 1) and the mode is not 2, this gives the triple back with its
unassigned bits cleared; otherwise it is a parameter error. -/
def Obligations.DecodeThenEncodeRegisters : Prop :=
  ∀ s s1 s2 s3 t1 t2 t3 : State, s.fault = none →
    exec .decCtrlHum s1 = .next t1 → exec .decCtrlMeas s2 = .next t2 →
    exec .decConfig s3 = .next t3 →
    let c := s.ports.icfg
    t1.latch.y0 = some (c.osrsH.zeroExtend 32) → t2.latch.y0 = some (c.osrsT.zeroExtend 32) →
    t2.latch.y1 = some (c.osrsP.zeroExtend 32) → t2.latch.y2 = some (c.mode.zeroExtend 32) →
    t3.latch.y0 = some (c.tSb.zeroExtend 32) → t3.latch.y1 = some (c.filter.zeroExtend 32) →
    t3.latch.y2 = some (c.spi3w.zeroExtend 32) →
    let good := t1.latch.yv = some 0b001#3 ∧ t2.latch.yv = some 0b111#3 ∧
      t3.latch.yv = some 0b111#3 ∧ t2.latch.y2 ≠ some 2#32
    (good → exec .encConfig s = .next (okEnd s { Latches.bottom with
      yb0 := some (s1.ports.ir &&& 0b00000111#8), yb1 := some s2.ports.ir,
      yb2 := some (s3.ports.ir &&& 0b11111101#8) })) ∧
    (¬ good → exec .encConfig s = .next (paramErrorEnd s))

/-- R136: an update with the field's own legal code needs no write and gives IR back; the second of
two equal updates, the second on the first one's byte, needs no write. -/
def Obligations.FieldUpdateIdempotent : Prop :=
  ∀ (i : Instr) (hi lo : Nat) (legal : Nat → Prop) (s : State), Updates i hi lo legal →
    s.fault = none → legal s.ports.iv.toNat →
    (s.ports.iv.toNat = bitsOf s.ports.ir hi lo →
      exec i s = .next (okEnd s { Latches.bottom with yb0 := some s.ports.ir, yw := some false })) ∧
    ∀ (t s' : State), exec i s = .next t → s'.fault = none → s'.ports.iv = s.ports.iv →
      t.latch.yb0 = some s'.ports.ir →
      exec i s' = .next (okEnd s' { Latches.bottom with
        yb0 := some s'.ports.ir, yw := some false })

/-- R137: an update that completes with OK keeps every bit outside its field; updating two different
fields of one register in either order gives the same byte. -/
def Obligations.FieldUpdatesAreLocal : Prop :=
  (∀ (i : Instr) (hi lo : Nat) (legal : Nat → Prop) (s t : State), Updates i hi lo legal →
    exec i s = .next t → t.status = some .ok →
    ∃ b, t.latch.yb0 = some b ∧
      ∀ n, (n < lo ∨ hi < n) → b.getLsbD n = s.ports.ir.getLsbD n) ∧
  ∀ (i j : Instr) (hi lo hi' lo' : Nat) (legal legal' : Nat → Prop)
    (s1 s2 s3 s4 t1 t2 t3 t4 : State),
    Updates i hi lo legal → Updates j hi' lo' legal' → (hi < lo' ∨ hi' < lo) →
    s1.ports.ir = s3.ports.ir → s1.ports.iv = s4.ports.iv → s2.ports.iv = s3.ports.iv →
    exec i s1 = .next t1 → t1.latch.yb0 = some s2.ports.ir → exec j s2 = .next t2 →
    exec j s3 = .next t3 → t3.latch.yb0 = some s4.ports.ir → exec i s4 = .next t4 →
    t2.latch.yb0 = t4.latch.yb0

/-- R293: after an update with OK the host writes YB0 back to the register exactly when it differs
from IR. -/
def Obligations.WriteBackOnlyWhenChanged : Prop :=
  ∀ (i : Instr) (hi lo : Nat) (legal : Nat → Prop) (s t : State) (a : RegAddr),
    Updates i hi lo legal → exec i s = .next t → t.status = some .ok →
    ∃ b, t.latch.yb0 = some b ∧
      writeBack a t = if b = s.ports.ir then [] else [(a, b)]

/-! ### Calibration -/

/-- R161: LOAD_CAL writes every coefficient from the bytes the table of R99 names, with CAL_VALID,
in one step; a second load faults and leaves CAL as it was. -/
def Obligations.LoadCalResult : Prop :=
  opcode .loadCal = 0x20#8 ∧ ∀ s : State, s.fault = none →
    (s.calValid = false → ∃ c, Parsed s.params s.ports.ib s.ports.ic c ∧
      exec .loadCal s = .next (okEnd { s with cal := some c, calValid := true } Latches.bottom)) ∧
    (s.calValid = true → exec .loadCal s = .next (faultEnd s .calReload))

/-- R163: the coefficients depend on no byte the table does not name: the byte of block A that
H1_INDEX does not select among the last two. -/
def Obligations.ParseReadsOnlyNamedBytes : Prop :=
  ∀ (s s' t t' : State), s.params = s'.params → s.ports.ic = s'.ports.ic →
    (∀ n, (h : n < 26) → n ≠ (if s.params.h1Index = .i25 then 24 else 25) →
      s.ports.ib[n] = s'.ports.ib[n]) →
    s.calValid = false → s'.calValid = false →
    exec .loadCal s = .next t → exec .loadCal s' = .next t' → t.cal = t'.cal

/-- R164: the ranges of the packed coefficients after LOAD_CAL. -/
def Obligations.PackedCoefficientRanges : Prop :=
  ∀ (s t : State) (c : Cal), s.calValid = false → exec .loadCal s = .next t → t.cal = some c →
    (s.params.h45SignExtend = false →
      (0 ≤ c.h4.toInt ∧ c.h4.toInt ≤ 4095) ∧ 0 ≤ c.h5.toInt ∧ c.h5.toInt ≤ 4095) ∧
    (s.params.h45SignExtend = true →
      (-2048 ≤ c.h4.toInt ∧ c.h4.toInt ≤ 2047) ∧ -2048 ≤ c.h5.toInt ∧ c.h5.toInt ≤ 2047)

/-! ### Compensation -/

/-- R183: the scaling primitive, and that its two meanings agree on x ≥ 0. -/
def Obligations.ScalingPrimitive : Prop :=
  ∀ (x : Word) (k : Nat), 1 ≤ k → k ≤ 14 →
    (tsc .floor x k).toInt = x.toInt / 2 ^ k ∧
    (tsc .trunc x k).toInt = x.toInt.tdiv (2 ^ k) ∧
    (0 ≤ x.toInt → tsc .floor x k = tsc .trunc x k)

/-- R184. -/
def Obligations.CompTResult : Prop :=
  opcode .compT = 0x30#8 ∧ ∀ s : State, s.fault = none →
    (∀ c, s.ports.ix.toNat ≤ 0xFFFFF → s.calValid = true → s.cal = some c →
      let fine := fineSpec s.params.tempScaling c s.ports.ix.toNat
      exec .compT s = .next (okEnd { s with
          tfine := some (BitVec.ofInt 32 fine), tfineValid := true }
        (y0Only (BitVec.ofInt 32 (temperatureSpec s.params.tempScaling fine))))) ∧
    (0xFFFFF < s.ports.ix.toNat → exec .compT s = .next (paramErrorEnd s)) ∧
    (s.ports.ix.toNat ≤ 0xFFFFF → s.calValid = false →
      exec .compT s = .next (faultEnd s .calUnset))

/-- R188, R187, R189. -/
def Obligations.CompP32Result : Prop :=
  opcode .compP32 = 0x31#8 ∧ ∀ s : State, s.fault = none →
    (s.params.press = .p64Only → exec .compP32 s = .next (faultEnd s .illegalCmd)) ∧
    (s.params.press ≠ .p64Only →
      (∀ c f, s.ports.ix.toNat ≤ 0xFFFFF → s.calValid = true → s.cal = some c →
        s.tfineValid = true → s.tfine = some f →
        exec .compP32 s = .next (okEnd s
          (y0Only (BitVec.ofInt 32 (pressure32Spec c f.toInt s.ports.ix.toNat))))) ∧
      (0xFFFFF < s.ports.ix.toNat → exec .compP32 s = .next (paramErrorEnd s)) ∧
      (s.ports.ix.toNat ≤ 0xFFFFF → s.calValid = false →
        exec .compP32 s = .next (faultEnd s .calUnset)) ∧
      (∀ c, s.ports.ix.toNat ≤ 0xFFFFF → s.calValid = true → s.cal = some c →
        s.tfineValid = false → exec .compP32 s = .next (faultEnd s .tfineUnset)))

/-- R193, R192, R195. -/
def Obligations.CompP64Result : Prop :=
  opcode .compP64 = 0x32#8 ∧ ∀ s : State, s.fault = none →
    (s.params.press = .p32Only → exec .compP64 s = .next (faultEnd s .illegalCmd)) ∧
    (s.params.press ≠ .p32Only →
      (∀ c f, s.ports.ix.toNat ≤ 0xFFFFF → s.calValid = true → s.cal = some c →
        s.tfineValid = true → s.tfine = some f →
        exec .compP64 s = .next (okEnd s
          (y0Only (BitVec.ofInt 32 (pressure64Spec c f.toInt s.ports.ix.toNat))))) ∧
      (0xFFFFF < s.ports.ix.toNat → exec .compP64 s = .next (paramErrorEnd s)) ∧
      (s.ports.ix.toNat ≤ 0xFFFFF → s.calValid = false →
        exec .compP64 s = .next (faultEnd s .calUnset)) ∧
      (∀ c, s.ports.ix.toNat ≤ 0xFFFFF → s.calValid = true → s.cal = some c →
        s.tfineValid = false → exec .compP64 s = .next (faultEnd s .tfineUnset)))

/-- R197, R196. -/
def Obligations.CompHResult : Prop :=
  opcode .compH = 0x33#8 ∧ ∀ s : State, s.fault = none →
    (∀ c f, s.ports.ix.toNat ≤ 0xFFFF → s.calValid = true → s.cal = some c →
      s.tfineValid = true → s.tfine = some f →
      exec .compH s = .next (okEnd s
        (y0Only (BitVec.ofInt 32 (humiditySpec c f.toInt s.ports.ix.toNat))))) ∧
    (0xFFFF < s.ports.ix.toNat → exec .compH s = .next (paramErrorEnd s)) ∧
    (s.ports.ix.toNat ≤ 0xFFFF → s.calValid = false →
      exec .compH s = .next (faultEnd s .calUnset)) ∧
    (∀ c, s.ports.ix.toNat ≤ 0xFFFF → s.calValid = true → s.cal = some c →
      s.tfineValid = false → exec .compH s = .next (faultEnd s .tfineUnset))

/-- R198: every COMP_H that completes with OK answers at most 102400, which is 100 %RH. -/
def Obligations.HumidityNeverAboveFull : Prop :=
  ∀ s t : State, exec .compH s = .next t → t.status = some .ok →
    ∃ y, t.latch.y0 = some y ∧ y.toNat ≤ 102400 ∧ percentRh y ≤ 100

/-- R187, R192: P1 = 0 always reaches the zero-denominator guard of both paths. -/
def Obligations.ZeroP1GivesZeroPressure : Prop :=
  ∀ (s : State) (c : Cal) (f : Word), s.fault = none → s.ports.ix.toNat ≤ 0xFFFFF →
    s.calValid = true → s.cal = some c → s.tfineValid = true → s.tfine = some f → c.p1 = 0 →
    (s.params.press ≠ .p64Only → exec .compP32 s = .next (okEnd s (y0Only 0))) ∧
    (s.params.press ≠ .p32Only → exec .compP64 s = .next (okEnd s (y0Only 0)))

/-- R185, R190, R194: what the results stand for, at the spec's worked values. -/
def Obligations.ResultUnits : Prop :=
  celsius 2508#32 = 25.08 ∧ pascals32 100656#32 = 100656 ∧ pascals64 25767233#32 = 25767233 / 256 ∧
  percentRh 102400#32 = 100

/-! ### Unit conversion -/

/-- R221. -/
def Obligations.SplitTResult : Prop :=
  opcode .splitT = 0x40#8 ∧ ∀ s : State, s.fault = none → ∃ y0 y1 : Word,
    exec .splitT s = .next (okEnd s { Latches.bottom with y0 := some y0, y1 := some y1 }) ∧
    y0.toInt = s.ports.ix.toInt.tdiv 100 ∧ y1.toInt = s.ports.ix.toInt.tmod 100

/-- R222. -/
def Obligations.SplitP32Result : Prop :=
  opcode .splitP32 = 0x41#8 ∧ ∀ s : State, s.fault = none → ∃ y0 y1 : Word,
    exec .splitP32 s = .next (okEnd s { Latches.bottom with y0 := some y0, y1 := some y1 }) ∧
    y0.toNat = s.ports.ix.toNat / 100 ∧ y1.toNat = s.ports.ix.toNat % 100

/-- R223, R8; a rescaling other than the default is uninterpreted (assumption log, entry 4). -/
def Obligations.SplitP64Result : Prop :=
  opcode .splitP64 = 0x42#8 ∧ ∀ s : State, s.fault = none → ∃ y0 y1 : Word,
    exec .splitP64 s = .next (okEnd s { Latches.bottom with y0 := some y0, y1 := some y1 }) ∧
    y0.toNat = p64RescaleSpec s.params.p64Rescale s.ports.ix / 10000 ∧
    y1.toNat = p64RescaleSpec s.params.p64Rescale s.ports.ix % 10000 / 10

/-- R224, R9; a rescaling other than the default is uninterpreted (assumption log, entry 4). -/
def Obligations.SplitHResult : Prop :=
  opcode .splitH = 0x43#8 ∧ ∀ s : State, s.fault = none → ∃ y0 y1 : Word,
    exec .splitH s = .next (okEnd s { Latches.bottom with y0 := some y0, y1 := some y1 }) ∧
    y0.toNat = hRescaleSpec s.params.hRescale s.ports.ix / 1000 ∧
    y1.toNat = hRescaleSpec s.params.hRescale s.ports.ix % 1000

/-- R231: the reconstruction laws of the splits. -/
def Obligations.SplitReconstructs : Prop :=
  ∀ s t : State, ∀ y0 y1 : Word, t.latch.y0 = some y0 → t.latch.y1 = some y1 →
    (exec .splitT s = .next t → y0.toInt * 100 + y1.toInt = s.ports.ix.toInt) ∧
    (exec .splitP32 s = .next t → y0.toNat * 100 + y1.toNat = s.ports.ix.toNat) ∧
    (exec .splitH s = .next t →
      y0.toNat * 1000 + y1.toNat = hRescaleSpec s.params.hRescale s.ports.ix) ∧
    (exec .splitP64 s = .next t →
      y0.toNat * 10000 + y1.toNat * 10 + p64RescaleSpec s.params.p64Rescale s.ports.ix % 10
        = p64RescaleSpec s.params.p64Rescale s.ports.ix)

/-- R232: the ranges of the fractional parts. -/
def Obligations.SplitFractionRanges : Prop :=
  ∀ s t : State, ∀ y1 : Word, t.latch.y1 = some y1 →
    (exec .splitT s = .next t → -99 ≤ y1.toInt ∧ y1.toInt ≤ 99 ∧
      (0 < y1.toInt → 0 < s.ports.ix.toInt) ∧ (y1.toInt < 0 → s.ports.ix.toInt < 0)) ∧
    (exec .splitP32 s = .next t → y1.toNat ≤ 99) ∧
    (exec .splitP64 s = .next t → y1.toNat ≤ 999) ∧
    (exec .splitH s = .next t → y1.toNat ≤ 999)

/-- R225, R227 to R230: what each FLT_* command divides by what, in the terms of the model's own
float operation, whose rounding FloatCommandRoundsTwice states. -/
def Obligations.FloatCommandResult : Prop :=
  ∀ (i : Instr) (s : State) (x : Int) (scale : Nat), s.fault = none →
    floatOperands s i = some (x, scale) →
    exec i s = .next (okEnd s { Latches.bottom with
      yf := some (scaledFloat s.params.floatFmt x scale) })

/-- R226 to R230: every FLT_* command completes with OK in every state that is not halted, and YF is
two roundings to nearest even, of the operand x to a and of the quotient a / b to q, b being the
scale; every one of them is finite, b is not zero, the sign is that of x, and x = 0 gives +0.0. R226
says this of whatever FLOAT_FMT is; which formats there are is the model's reading (assumption log,
entry 5). -/
def Obligations.FloatCommandRoundsTwice : Prop :=
  (opcode .fltT = 0x48#8 ∧ opcode .fltP32 = 0x49#8 ∧ opcode .fltP64 = 0x4A#8 ∧
    opcode .fltH = 0x4B#8) ∧
  ∀ (i : Instr) (s : State) (x : Int) (scale : Nat), s.fault = none →
    floatOperands s i = some (x, scale) →
    ∃ (v : FloatVal) (a b q : Nat),
      exec i s = .next (okEnd s { Latches.bottom with yf := some v }) ∧
      NearestEven s.params.floatFmt (x.natAbs : ℚ) a ∧
      NearestEven s.params.floatFmt (scale : ℚ) b ∧ magValue s.params.floatFmt b = scale ∧
      NearestEven s.params.floatFmt
        (magValue s.params.floatFmt a / magValue s.params.floatFmt b) q ∧
      floatIs s.params.floatFmt v (x < 0) q ∧ (x = 0 → q = 0)

/-! ### Runs -/

/-- R36: the run index, a field of the model's State (assumption log, entry 1), counts the completed
commands, and the host sees one view after each. -/
def Obligations.RunIndexCountsCommands : Prop :=
  ∀ (s : State) (ps : List Ports), (runCommands s ps).success = true →
    (runCommands s ps).final.index = s.index + ps.length ∧
    (runCommands s ps).views.length = ps.length ∧
    ∀ v ∈ (runCommands s ps).views, v.fault = none ∧ v.status.isSome = true

/-- R64, R257: the commands of a sequence take effect in issue order, one step each: queueing all
of them (assumption log, entry 1) gives the final state that issuing one at a time gives. -/
def Obligations.QueuedRunMatchesIssuedRun : Prop :=
  ∀ (s : State) (ps : List Ports), (runCommands s ps).success = true →
    Host.Core.run core ps.length { s with host := ps.map .command } =
      .next { (runCommands s ps).final with host := [] }

/-! ### What reaches CERC from the sensor's registers -/

/-- R61: a burst of n at address a is the n bytes of the registers from a on, in order; one that
would run past 0xFF, of which the spec says nothing, answers no bytes (the model's choice: assumption
log, entry 15). -/
def Obligations.BurstReadsConsecutiveRegisters : Prop :=
  ∀ (img : Image) (a : RegAddr) (n : Nat) (bytes : List Byte),
    burst img a n = some bytes ↔
      a.toNat + n ≤ 256 ∧ bytes.length = n ∧
      ∀ k, k < n → ∀ b : RegAddr, b.toNat = a.toNat + k → readReg img b = bytes[k]?

/-- R283, R291, R52, R54, R55: a boot, from every state and over every image of the sensor's registers,
resets CERC, and loads CAL from the registers 0x88..0xA1 and 0xE1..0xE7 exactly when the chip ID is
0x60 and both bursts give their bytes; otherwise a failure is reported and CERC stays as after reset,
with CAL_VALID = 0. The image is the model's form of what reads answer (assumption log, entry 11). -/
def Obligations.BootLoadsCalibrationOrLeavesReset : Prop :=
  ∀ (operands : Ports) (img : Image) (s : State),
    ∃ t, Host.Core.run core (bootEvents operands img).length
        { s with host := bootEvents operands img } = .next t ∧
      t.host = [] ∧ t.fault = none ∧ t.tfineValid = false ∧ t.params = s.params ∧
      (∀ ib ic, registersHold img 0x88 ib → registersHold img 0xE1 ic →
        readReg img 0xD0 = some 0x60 →
        (boot operands img).failure = none ∧ t.calValid = true ∧ t.status = some .ok ∧
        ∃ c, t.cal = some c ∧ Parsed s.params ib ic c) ∧
      (¬ (readReg img 0xD0 = some 0x60 ∧ (∃ ib : Vector Byte 26, registersHold img 0x88 ib) ∧
          ∃ ic : Vector Byte 7, registersHold img 0xE1 ic) →
        (boot operands img).failure.isSome = true ∧ t.calValid = false ∧ t.cal = none ∧
        t.status = none) ∧
      ∀ id, readReg img 0xD0 = some id → id ≠ 0x60 →
        (boot operands img).failure = some .idError

/-- R56, R85, R287: the first step of a measurement decodes the eight registers 0xF7..0xFE, and the host
goes on with COMP_T, the pressure command and COMP_H on the temperature, pressure and humidity that
DEC_RAW left in Y1, Y0 and Y2; when the burst gives no bytes, no command is presented. The image is
the model's form of what reads answer (assumption log, entry 11). -/
def Obligations.MeasurementReadsAdcRegisters : Prop :=
  ∀ (pressure : Instr) (operands : Ports) (img : Image),
    (∀ (adc : Vector Byte 8) (s : State), registersHold img 0xF7 adc → s.fault = none →
      ∃ (t : State) (adcP adcT adcH : Word),
        step { s with host := measureFrom pressure operands img } = .next t ∧
        t.status = some .ok ∧
        t.latch = { Latches.bottom with y0 := some adcP, y1 := some adcT, y2 := some adcH } ∧
        adcP.toNat = adc[0].toNat * 4096 + adc[1].toNat * 16 + adc[2].toNat / 16 ∧
        adcT.toNat = adc[3].toNat * 4096 + adc[4].toNat * 16 + adc[5].toNat / 16 ∧
        adcH.toNat = adc[6].toNat * 256 + adc[7].toNat ∧
        t.host = [.command { operands with cmd := 0x30, ix := adcT },
          .command { operands with cmd := opcode pressure, ix := adcP },
          .command { operands with cmd := 0x33, ix := adcH }]) ∧
    ((¬ ∃ adc : Vector Byte 8, registersHold img 0xF7 adc) →
      measureFrom pressure operands img = [])
end

