-- ==== Sys2Proof/Laws/State.lean ====
section
/-! SUPPORT. Every field after every update of the state, so that no proof unfolds an update. -/

namespace Sys2Proof.Machine

section
variable (s : State)

@[simp] theorem State.completeOk_cal (l : Latches) : (s.completeOk l).cal = s.cal := rfl
@[simp] theorem State.completeOk_calValid (l : Latches) : (s.completeOk l).calValid = s.calValid := rfl
@[simp] theorem State.completeOk_tfine (l : Latches) : (s.completeOk l).tfine = s.tfine := rfl
@[simp] theorem State.completeOk_tfineValid (l : Latches) : (s.completeOk l).tfineValid = s.tfineValid := rfl
@[simp] theorem State.completeOk_status (l : Latches) : (s.completeOk l).status = some .ok := rfl
@[simp] theorem State.completeOk_latch (l : Latches) : (s.completeOk l).latch = l := rfl
@[simp] theorem State.completeOk_fault (l : Latches) : (s.completeOk l).fault = s.fault := rfl
@[simp] theorem State.completeOk_params (l : Latches) : (s.completeOk l).params = s.params := rfl
@[simp] theorem State.completeOk_ports (l : Latches) : (s.completeOk l).ports = s.ports := rfl
@[simp] theorem State.completeOk_host (l : Latches) : (s.completeOk l).host = s.host := rfl
@[simp] theorem State.completeOk_index (l : Latches) : (s.completeOk l).index = s.index + 1 := rfl

@[simp] theorem State.completeParamError_cal : (s.completeParamError).cal = s.cal := rfl
@[simp] theorem State.completeParamError_calValid : (s.completeParamError).calValid = s.calValid := rfl
@[simp] theorem State.completeParamError_tfine : (s.completeParamError).tfine = s.tfine := rfl
@[simp] theorem State.completeParamError_tfineValid : (s.completeParamError).tfineValid = s.tfineValid := rfl
@[simp] theorem State.completeParamError_status : (s.completeParamError).status = some .paramError := rfl
@[simp] theorem State.completeParamError_latch : (s.completeParamError).latch = Latches.bottom := rfl
@[simp] theorem State.completeParamError_fault : (s.completeParamError).fault = s.fault := rfl
@[simp] theorem State.completeParamError_params : (s.completeParamError).params = s.params := rfl
@[simp] theorem State.completeParamError_ports : (s.completeParamError).ports = s.ports := rfl
@[simp] theorem State.completeParamError_host : (s.completeParamError).host = s.host := rfl
@[simp] theorem State.completeParamError_index : (s.completeParamError).index = s.index + 1 := rfl

@[simp] theorem State.takeFault_cal (k : FaultKind) : (s.takeFault k).cal = s.cal := rfl
@[simp] theorem State.takeFault_calValid (k : FaultKind) : (s.takeFault k).calValid = s.calValid := rfl
@[simp] theorem State.takeFault_tfine (k : FaultKind) : (s.takeFault k).tfine = s.tfine := rfl
@[simp] theorem State.takeFault_tfineValid (k : FaultKind) : (s.takeFault k).tfineValid = s.tfineValid := rfl
@[simp] theorem State.takeFault_status (k : FaultKind) : (s.takeFault k).status = none := rfl
@[simp] theorem State.takeFault_latch (k : FaultKind) : (s.takeFault k).latch = Latches.bottom := rfl
@[simp] theorem State.takeFault_fault (k : FaultKind) : (s.takeFault k).fault = some k := rfl
@[simp] theorem State.takeFault_params (k : FaultKind) : (s.takeFault k).params = s.params := rfl
@[simp] theorem State.takeFault_ports (k : FaultKind) : (s.takeFault k).ports = s.ports := rfl
@[simp] theorem State.takeFault_host (k : FaultKind) : (s.takeFault k).host = s.host := rfl
@[simp] theorem State.takeFault_index (k : FaultKind) : (s.takeFault k).index = s.index := rfl

@[simp] theorem State.writeCal_cal (c : Cal) : (s.writeCal c).cal = some c := rfl
@[simp] theorem State.writeCal_calValid (c : Cal) : (s.writeCal c).calValid = true := rfl
@[simp] theorem State.writeCal_tfine (c : Cal) : (s.writeCal c).tfine = s.tfine := rfl
@[simp] theorem State.writeCal_tfineValid (c : Cal) : (s.writeCal c).tfineValid = s.tfineValid := rfl
@[simp] theorem State.writeCal_status (c : Cal) : (s.writeCal c).status = s.status := rfl
@[simp] theorem State.writeCal_latch (c : Cal) : (s.writeCal c).latch = s.latch := rfl
@[simp] theorem State.writeCal_fault (c : Cal) : (s.writeCal c).fault = s.fault := rfl
@[simp] theorem State.writeCal_params (c : Cal) : (s.writeCal c).params = s.params := rfl
@[simp] theorem State.writeCal_ports (c : Cal) : (s.writeCal c).ports = s.ports := rfl
@[simp] theorem State.writeCal_host (c : Cal) : (s.writeCal c).host = s.host := rfl
@[simp] theorem State.writeCal_index (c : Cal) : (s.writeCal c).index = s.index := rfl

@[simp] theorem State.writeTfine_cal (f : Word) : (s.writeTfine f).cal = s.cal := rfl
@[simp] theorem State.writeTfine_calValid (f : Word) : (s.writeTfine f).calValid = s.calValid := rfl
@[simp] theorem State.writeTfine_tfine (f : Word) : (s.writeTfine f).tfine = some f := rfl
@[simp] theorem State.writeTfine_tfineValid (f : Word) : (s.writeTfine f).tfineValid = true := rfl
@[simp] theorem State.writeTfine_status (f : Word) : (s.writeTfine f).status = s.status := rfl
@[simp] theorem State.writeTfine_latch (f : Word) : (s.writeTfine f).latch = s.latch := rfl
@[simp] theorem State.writeTfine_fault (f : Word) : (s.writeTfine f).fault = s.fault := rfl
@[simp] theorem State.writeTfine_params (f : Word) : (s.writeTfine f).params = s.params := rfl
@[simp] theorem State.writeTfine_ports (f : Word) : (s.writeTfine f).ports = s.ports := rfl
@[simp] theorem State.writeTfine_host (f : Word) : (s.writeTfine f).host = s.host := rfl
@[simp] theorem State.writeTfine_index (f : Word) : (s.writeTfine f).index = s.index := rfl

@[simp] theorem State.sample_cal (p : Ports) (rest : List HostEvent) : (s.sample p rest).cal = s.cal := rfl
@[simp] theorem State.sample_calValid (p : Ports) (rest : List HostEvent) : (s.sample p rest).calValid = s.calValid := rfl
@[simp] theorem State.sample_tfine (p : Ports) (rest : List HostEvent) : (s.sample p rest).tfine = s.tfine := rfl
@[simp] theorem State.sample_tfineValid (p : Ports) (rest : List HostEvent) : (s.sample p rest).tfineValid = s.tfineValid := rfl
@[simp] theorem State.sample_status (p : Ports) (rest : List HostEvent) : (s.sample p rest).status = s.status := rfl
@[simp] theorem State.sample_latch (p : Ports) (rest : List HostEvent) : (s.sample p rest).latch = s.latch := rfl
@[simp] theorem State.sample_fault (p : Ports) (rest : List HostEvent) : (s.sample p rest).fault = s.fault := rfl
@[simp] theorem State.sample_params (p : Ports) (rest : List HostEvent) : (s.sample p rest).params = s.params := rfl
@[simp] theorem State.sample_ports (p : Ports) (rest : List HostEvent) : (s.sample p rest).ports = p := rfl
@[simp] theorem State.sample_host (p : Ports) (rest : List HostEvent) : (s.sample p rest).host = rest := rfl
@[simp] theorem State.sample_index (p : Ports) (rest : List HostEvent) : (s.sample p rest).index = s.index := rfl

@[simp] theorem State.assertReset_cal (rest : List HostEvent) : (s.assertReset rest).cal = none := rfl
@[simp] theorem State.assertReset_calValid (rest : List HostEvent) : (s.assertReset rest).calValid = false := rfl
@[simp] theorem State.assertReset_tfine (rest : List HostEvent) : (s.assertReset rest).tfine = none := rfl
@[simp] theorem State.assertReset_tfineValid (rest : List HostEvent) : (s.assertReset rest).tfineValid = false := rfl
@[simp] theorem State.assertReset_status (rest : List HostEvent) : (s.assertReset rest).status = none := rfl
@[simp] theorem State.assertReset_latch (rest : List HostEvent) : (s.assertReset rest).latch = Latches.bottom := rfl
@[simp] theorem State.assertReset_fault (rest : List HostEvent) : (s.assertReset rest).fault = none := rfl
@[simp] theorem State.assertReset_params (rest : List HostEvent) : (s.assertReset rest).params = s.params := rfl
@[simp] theorem State.assertReset_ports (rest : List HostEvent) : (s.assertReset rest).ports = Ports.idle := rfl
@[simp] theorem State.assertReset_host (rest : List HostEvent) : (s.assertReset rest).host = rest := rfl
@[simp] theorem State.assertReset_index (rest : List HostEvent) : (s.assertReset rest).index = 0 := rfl

end

end Sys2Proof.Machine
end

