-- ==== Sys2Proof/Laws/Ops.lean ====
section
/-! SUPPORT. What each shared operation can answer, said once. -/

namespace Sys2Proof.Machine

theorem accept_of_running {s : State} (h : s.fault = none) (body : Result) :
    accept s body = body := by
  simp [accept, h]

theorem accept_of_halted {s : State} {k : FaultKind} (h : s.fault = some k) (body : Result) :
    accept s body = .fault (.halted k) := by
  simp [accept, h]

/-- An accepted command that answers a next state was presented to a CERC that is not halted. -/
theorem accept_next {s t : State} {body : Result} (h : accept s body = .next t) :
    s.fault = none ∧ body = .next t := by
  unfold accept at h
  split at h
  · exact ⟨by assumption, h⟩
  · cases h

@[simp] theorem finish_next {s t : State} {l : Latches} :
    finish s l = .next t ↔ t = s.completeOk l := by
  simp [finish, eq_comm]

@[simp] theorem paramError_next {s t : State} :
    paramError s = .next t ↔ t = s.completeParamError := by
  simp [paramError, eq_comm]

@[simp] theorem raise_next {s t : State} {k : FaultKind} :
    raise s k = .next t ↔ t = s.takeFault k := by
  simp [raise, eq_comm]

theorem requireBuilt_next {i : Instr} {s t : State} {body : Result}
    (h : requireBuilt i s body = .next t) :
    (i.wellFormed s.params.press = true ∧ body = .next t) ∨
    (i.wellFormed s.params.press = false ∧ t = s.takeFault .illegalCmd) := by
  unfold requireBuilt at h
  split at h
  · exact .inl ⟨by assumption, h⟩
  · exact .inr ⟨by simp_all, raise_next.mp h⟩

theorem requireLegal_next {legal : Bool} {s t : State} {body : Result}
    (h : requireLegal legal s body = .next t) :
    (legal = true ∧ body = .next t) ∨ (legal = false ∧ t = s.completeParamError) := by
  unfold requireLegal at h
  split at h
  · exact .inl ⟨by assumption, h⟩
  · exact .inr ⟨by simp_all, paramError_next.mp h⟩

theorem withCal_of_valid {s : State} {c : Cal} (hv : s.calValid = true) (hc : s.cal = some c)
    (body : Cal → Result) : withCal s body = body c := by
  simp [withCal, hv, hc]

theorem withCal_of_unset {s : State} (hv : s.calValid = false) (body : Cal → Result) :
    withCal s body = raise s .calUnset := by
  simp [withCal, hv]

theorem withCal_next {s t : State} {body : Cal → Result} (h : withCal s body = .next t) :
    (∃ c, s.calValid = true ∧ s.cal = some c ∧ body c = .next t) ∨
    ((s.calValid = false ∨ s.cal = none) ∧ t = s.takeFault .calUnset) := by
  unfold withCal at h
  split at h
  · exact .inl ⟨_, by assumption, by assumption, h⟩
  · refine .inr ⟨?_, raise_next.mp h⟩
    cases hv : s.calValid <;> cases hc : s.cal <;> simp_all

theorem withTfine_of_valid {s : State} {f : Word} (hv : s.tfineValid = true)
    (hf : s.tfine = some f) (body : Word → Result) : withTfine s body = body f := by
  simp [withTfine, hv, hf]

theorem withTfine_of_unset {s : State} (hv : s.tfineValid = false) (body : Word → Result) :
    withTfine s body = raise s .tfineUnset := by
  simp [withTfine, hv]

theorem withTfine_next {s t : State} {body : Word → Result} (h : withTfine s body = .next t) :
    (∃ f, s.tfineValid = true ∧ s.tfine = some f ∧ body f = .next t) ∨
    ((s.tfineValid = false ∨ s.tfine = none) ∧ t = s.takeFault .tfineUnset) := by
  unfold withTfine at h
  split at h
  · exact .inl ⟨_, by assumption, by assumption, h⟩
  · refine .inr ⟨?_, raise_next.mp h⟩
    cases hv : s.tfineValid <;> cases hf : s.tfine <;> simp_all

/-- A step is idle, a reset, or a sampled command. -/
theorem stepEvent_next {meaning : Instr → State → Result} {s t : State}
    (h : stepEvent meaning s = .next t) :
    (∃ rest, s.host = .reset :: rest ∧ t = s.assertReset rest) ∨
    (∃ p rest, s.host = .command p :: rest ∧ runSampled meaning (s.sample p rest) = .next t) := by
  unfold stepEvent at h
  split at h
  · cases h
  · next rest hh => exact .inl ⟨rest, hh, by simpa [eq_comm] using h⟩
  · next p rest hh => exact .inr ⟨p, rest, hh, h⟩

/-- A sampled command is illegal, or the meaning of the decoded command. -/
theorem runSampled_next {meaning : Instr → State → Result} {s t : State}
    (h : runSampled meaning s = .next t) :
    (∃ i, decodeCmd s.params.press s.ports.cmd = .ok i ∧ meaning i s = .next t) ∨
    (∃ e, decodeCmd s.params.press s.ports.cmd = .error e ∧ s.fault = none ∧
      t = s.takeFault .illegalCmd) := by
  unfold runSampled at h
  split at h
  · next i hi => exact .inl ⟨i, hi, h⟩
  · next e he =>
    obtain ⟨hf, hr⟩ := accept_next h
    exact .inr ⟨e, he, hf, raise_next.mp hr⟩

end Sys2Proof.Machine
end

