-- ==== Sys2Proof/Laws/Exec.lean ====
section
/-! SUPPORT. Everything a command can do, said once: the inversion of exec, command by command and
as a whole. -/

namespace Sys2Proof.Machine

/-- The ends every command shares: it faulted, or it completed with a parameter error. -/
def Refused (s t : State) : Prop := (∃ k, t = s.takeFault k) ∨ t = s.completeParamError

theorem updateField_next {hi lo : Nat} {legal : Byte → Bool} {s t : State}
    (h : updateField hi lo legal s = .next t) :
    s.fault = none ∧
    ((legal s.ports.iv = true ∧ t = s.completeOk { Latches.bottom with
        yb0 := some (replaceField hi lo s.ports.ir s.ports.iv)
        yw := some (writeNeeded hi lo s.ports.ir s.ports.iv) }) ∨
     (legal s.ports.iv = false ∧ t = s.completeParamError)) := by
  obtain ⟨hf, hb⟩ := accept_next h
  exact ⟨hf, (requireLegal_next hb).imp (fun ⟨hl, he⟩ => ⟨hl, finish_next.mp he⟩) id⟩

theorem finishSplit_next {s t : State} {a b : Word} (h : finishSplit s a b = .next t) :
    s.fault = none ∧
    t = s.completeOk { Latches.bottom with y0 := some a, y1 := some b } :=
  (accept_next h).imp id finish_next.mp

theorem finishFloat_next {s t : State} {x : Int} {n : Nat} (h : finishFloat s x n = .next t) :
    s.fault = none ∧
    t = s.completeOk { Latches.bottom with yf := some (scaledFloat s.params.floatFmt x n) } :=
  (accept_next h).imp id finish_next.mp

theorem execEncConfig_next {s t : State} (h : execEncConfig s = .next t) :
    s.fault = none ∧
    ((icfgLegal s.ports.icfg = true ∧ t = s.completeOk { Latches.bottom with
        yb0 := some (encCtrlHum s.ports.icfg)
        yb1 := some (encCtrlMeas s.ports.icfg)
        yb2 := some (encConfigByte s.ports.icfg) }) ∨
     (icfgLegal s.ports.icfg = false ∧ t = s.completeParamError)) := by
  obtain ⟨hf, hb⟩ := accept_next h
  exact ⟨hf, (requireLegal_next hb).imp (fun ⟨hl, he⟩ => ⟨hl, finish_next.mp he⟩) id⟩

theorem execLoadCal_next {s t : State} (h : execLoadCal s = .next t) :
    s.fault = none ∧
    ((s.calValid = false ∧
        t = (s.writeCal (parseCal s.params s.ports.ib s.ports.ic)).completeOk Latches.bottom) ∨
     (s.calValid = true ∧ t = s.takeFault .calReload)) := by
  obtain ⟨hf, hb⟩ := accept_next h
  refine ⟨hf, ?_⟩
  cases hv : s.calValid <;> simp [hv] at hb
  · exact .inl ⟨rfl, hb⟩
  · exact .inr ⟨rfl, hb⟩

theorem execCompT_next {s t : State} (h : execCompT s = .next t) :
    s.fault = none ∧
    ((∃ c, isRaw20 s.ports.ix = true ∧ s.calValid = true ∧ s.cal = some c ∧
        t = (s.writeTfine (tempFine s.params.tempScaling c s.ports.ix)).completeOk
          { Latches.bottom with y0 := some (tempOfFine s.params.tempScaling
              (tempFine s.params.tempScaling c s.ports.ix)) }) ∨
     (isRaw20 s.ports.ix = true ∧ (s.calValid = false ∨ s.cal = none) ∧
        t = s.takeFault .calUnset) ∨
     (isRaw20 s.ports.ix = false ∧ t = s.completeParamError)) := by
  obtain ⟨hf, hb⟩ := accept_next h
  refine ⟨hf, ?_⟩
  obtain ⟨hr, hb⟩ | ⟨hr, rfl⟩ := requireLegal_next hb
  · obtain ⟨c, hv, hc, hb⟩ | ⟨hu, rfl⟩ := withCal_next hb
    · exact .inl ⟨c, hr, hv, hc, finish_next.mp hb⟩
    · exact .inr (.inl ⟨hr, hu, rfl⟩)
  · exact .inr (.inr ⟨hr, rfl⟩)

/-- The common part of the commands that need both CAL and TFINE. -/
theorem withCal_withTfine_next {s t : State} {y : Cal → Word → Word}
    (h : withCal s (fun c => withTfine s fun f =>
      finish s { Latches.bottom with y0 := some (y c f) }) = .next t) :
    (∃ c f, s.calValid = true ∧ s.cal = some c ∧ s.tfineValid = true ∧ s.tfine = some f ∧
        t = s.completeOk { Latches.bottom with y0 := some (y c f) }) ∨
    ((s.calValid = false ∨ s.cal = none) ∧ t = s.takeFault .calUnset) ∨
    (s.calValid = true ∧ (s.tfineValid = false ∨ s.tfine = none) ∧ t = s.takeFault .tfineUnset) := by
  obtain ⟨c, hv, hc, hb⟩ | ⟨hu, rfl⟩ := withCal_next h
  · obtain ⟨f, hw, ht, hb⟩ | ⟨hu, rfl⟩ := withTfine_next hb
    · exact .inl ⟨c, f, hv, hc, hw, ht, finish_next.mp hb⟩
    · exact .inr (.inr ⟨hv, hu, rfl⟩)
  · exact .inr (.inl ⟨hu, rfl⟩)

/-- The inversion of exec: a command that answers a next state was accepted, and either faulted,
or completed with a parameter error, or completed with OK; only LOAD_CAL writes CAL, and only
COMP_T writes TFINE. -/
theorem exec_next {i : Instr} {s t : State} (h : exec i s = .next t) :
    s.fault = none ∧
    (Refused s t ∨ (∃ l, t = s.completeOk l) ∨
     (i = .loadCal ∧ s.calValid = false ∧
        t = (s.writeCal (parseCal s.params s.ports.ib s.ports.ic)).completeOk Latches.bottom) ∨
     (i = .compT ∧ s.calValid = true ∧ ∃ f l, t = (s.writeTfine f).completeOk l)) := by
  have upd : ∀ {hi lo legal}, updateField hi lo legal s = .next t →
      s.fault = none ∧ (Refused s t ∨ (∃ l, t = s.completeOk l)) := fun h =>
    (updateField_next h).imp id fun h => h.elim (fun h => .inr ⟨_, h.2⟩) (fun h => .inl (.inr h.2))
  have comp : ∀ {r : Bool} {y : Cal → Word → Word},
      requireLegal r s (withCal s (fun c => withTfine s fun f =>
        finish s { Latches.bottom with y0 := some (y c f) })) = .next t →
      Refused s t ∨ (∃ l, t = s.completeOk l) := by
    intro r y h
    obtain ⟨-, h⟩ | ⟨-, rfl⟩ := requireLegal_next h
    · obtain ⟨c, f, -, -, -, -, rfl⟩ | ⟨-, rfl⟩ | ⟨-, -, rfl⟩ := withCal_withTfine_next h
      · exact .inr ⟨_, rfl⟩
      · exact .inl (.inl ⟨_, rfl⟩)
      · exact .inl (.inl ⟨_, rfl⟩)
    · exact .inl (.inr rfl)
  have press : ∀ {j : Instr} {r : Bool} {y : Cal → Word → Word},
      requireBuilt j s (requireLegal r s (withCal s (fun c => withTfine s fun f =>
        finish s { Latches.bottom with y0 := some (y c f) }))) = .next t →
      Refused s t ∨ (∃ l, t = s.completeOk l) := by
    intro j r y h
    obtain ⟨-, h⟩ | ⟨-, rfl⟩ := requireBuilt_next h
    · exact comp h
    · exact .inl (.inl ⟨_, rfl⟩)
  have wide : ∀ {p q : Prop}, s.fault = none ∧ (Refused s t ∨ (∃ l, t = s.completeOk l)) →
      s.fault = none ∧ (Refused s t ∨ (∃ l, t = s.completeOk l) ∨ p ∨ q) := fun h =>
    h.imp id fun h => h.imp id .inl
  cases i with
  | encConfig =>
    exact wide ((execEncConfig_next h).imp id fun h =>
      h.elim (fun h => .inr ⟨_, h.2⟩) (fun h => .inl (.inr h.2)))
  | decCtrlHum | decCtrlMeas | decConfig | decRaw =>
    exact wide ((accept_next h).imp id fun h => .inr ⟨_, finish_next.mp h⟩)
  | updOsrsH | updOsrsT | updOsrsP | updMode | updTSb | updFilter | updSpi3w => exact wide (upd h)
  | loadCal =>
    refine (execLoadCal_next h).imp id fun h => h.elim (fun h => ?_) (fun h => ?_)
    · exact .inr (.inr (.inl ⟨rfl, h⟩))
    · exact .inl (.inl ⟨_, h.2⟩)
  | compT =>
    refine (execCompT_next h).imp id fun h => ?_
    obtain ⟨c, -, hv, -, ht⟩ | ⟨-, -, ht⟩ | ⟨-, ht⟩ := h
    · exact .inr (.inr (.inr ⟨rfl, hv, _, _, ht⟩))
    · exact .inl (.inl ⟨_, ht⟩)
    · exact .inl (.inr ht)
  | compP32 | compP64 => exact wide ((accept_next h).imp id press)
  | compH => exact wide ((accept_next h).imp id comp)
  | splitT | splitP32 | splitP64 | splitH =>
    exact wide ((finishSplit_next h).imp id fun h => .inr ⟨_, h⟩)
  | fltT | fltP32 | fltP64 | fltH =>
    exact wide ((finishFloat_next h).imp id fun h => .inr ⟨_, h⟩)

/-- An outcome with its next state changed. -/
def mapNext (f : State → State) (r : Result) : Result :=
  match r with
  | .next t => .next (f t)
  | .fault e => .fault e
  | .refused e => .refused e

/-- No command looks at what the host does next. -/
theorem exec_host (i : Instr) (s : State) (h : List HostEvent) :
    exec i { s with host := h } = mapNext (fun t => { t with host := h }) (exec i s) := by
  cases i <;>
    simp only [exec, execEncConfig, execDecCtrlHum, execDecCtrlMeas, execDecConfig, execDecRaw,
      execUpdOsrsH, execUpdOsrsT, execUpdOsrsP, execUpdMode, execUpdTSb, execUpdFilter,
      execUpdSpi3w, updateField, execLoadCal, execCompT, execCompP32, execCompP64, execCompH,
      execSplitT, execSplitP32, execSplitP64, execSplitH, execFltT, execFltP32, execFltP64,
      execFltH, finishSplit, finishFloat, accept, requireLegal, requireBuilt, withCal,
      withTfine] <;>
    (repeat' split) <;> rfl

/-- A halted CERC accepts no command. -/
theorem exec_halted {i : Instr} {s : State} {k : FaultKind} (h : s.fault = some k) :
    exec i s = .fault (.halted k) := by
  cases i <;> exact accept_of_halted h _

end Sys2Proof.Machine
end

