-- ==== Sys2Proof/Laws/Formulas.lean ====
section
/-! SUPPORT. The casts, shifts and the clamp of the formulas, on integers. -/

namespace Sys2Proof.Machine

theorem sext_toInt {w n : Nat} (h : w ≤ n) (x : BitVec w) : (sext n x).toInt = x.toInt :=
  BitVec.toInt_signExtend_of_le h

theorem zext_toInt {w n : Nat} (h : w < n) (x : BitVec w) : (zext n x).toInt = x.toNat := by
  have hx : x.toNat < 2 ^ w := x.isLt
  have hp : 2 ^ (w + 1) ≤ 2 ^ n := Nat.pow_le_pow_right (by norm_num) h
  have hw : (zext n x).toNat = x.toNat := by
    simp only [zext, BitVec.toNat_setWidth]
    exact Nat.mod_eq_of_lt (by omega)
  rw [BitVec.toInt_eq_toNat_of_lt (by rw [hw]; omega), hw]

/-- >> on a signed type is the floor of the quotient (R16). -/
theorem sshiftRight_toInt {w : Nat} (x : BitVec w) (k : Nat) :
    (x.sshiftRight k).toInt = x.toInt / 2 ^ k := by
  rw [BitVec.toInt_sshiftRight, Int.shiftRight_eq_div_pow]
  simp

/-- << is a product reduced into the type (R16). -/
theorem shiftLeft_toInt {w : Nat} (x : BitVec w) (k : Nat) :
    (x <<< k).toInt = (x.toInt * 2 ^ k).bmod (2 ^ w) := by
  rw [BitVec.toInt_shiftLeft, BitVec.toInt_eq_toNat_bmod, Nat.shiftLeft_eq]
  simp

/-- The clamp of the humidity (R196). -/
theorem clampHumidity_toInt (v : Word) :
    (clampHumidity v).toInt = max 0 (min v.toInt 419430400) := by
  have e : (419430400#32).toInt = 419430400 := rfl
  have e0 : (0#32).toInt = 0 := rfl
  unfold clampHumidity
  simp only [BitVec.slt_iff_toInt_lt]
  split
  · rw [e0] at *
    omega
  · split <;> rw [e0] at * <;> rw [e] at * <;> omega

end Sys2Proof.Machine
end

