-- ==== Sys2Proof/Laws/HostSide.lean ====
section
/-! SUPPORT. What a read of a register, a burst and a boot can answer. -/

namespace Sys2Proof.Machine

@[simp] theorem readFrom_zero (img : Image) (a : RegAddr) : readFrom img a 0 = some [] := rfl

/-- A burst gives as many bytes as were asked for. -/
theorem readFrom_length {img : Image} {n : Nat} {a : RegAddr} {bytes : List Byte}
    (h : readFrom img a n = some bytes) : bytes.length = n := by
  induction n generalizing a bytes with
  | zero => cases h; rfl
  | succ n ih =>
    simp only [readFrom] at h
    split at h
    · rename_i b rest _ hr
      cases h
      simp [ih hr]
    · cases h

/-- A burst that answers stays inside the 8-bit space and reads its registers in order. -/
theorem burst_some {img : Image} {a : RegAddr} {n : Nat} {bytes : List Byte}
    (h : burst img a n = some bytes) :
    a.toNat + n ≤ 256 ∧ readFrom img a n = some bytes ∧ bytes.length = n := by
  unfold burst at h
  split at h
  · exact ⟨by assumption, h, readFrom_length h⟩
  · cases h

/-- A port holds exactly the bytes its burst answers. -/
theorem burstPort_eq_some {img : Image} {a : RegAddr} {n : Nat} {v : Vector Byte n} :
    burstPort img a n = some v ↔ burst img a n = some v.toList := by
  unfold burstPort
  constructor
  · intro h
    split at h
    · split at h
      · cases h; assumption
      · cases h
    · cases h
  · intro h
    simp [h]
    simp [Vector.toList]

/-- The bytes of the burst that DEC_RAW decodes. -/
@[simp] theorem withBurst_getElem (ib : Vector Byte 26) (adc : Vector Byte 8) (i : Nat) (h : i < 8) :
    (withBurst ib adc)[i] = adc[i] := by
  simp [withBurst, h]

/-- A boot presents a reset alone and reports a failure, an identity error exactly on another chip
ID, or it loads the two blocks it has read. -/
theorem boot_cases (operands : Ports) (img : Image) :
    (∃ e, boot operands img = bootFails e ∧
      (e = .idError ↔ ∃ id, readReg img chipIdReg = some id ∧ id ≠ chipId)) ∨
    (readReg img chipIdReg = some chipId ∧ ∃ ib ic, burstPort img calBlockA 26 = some ib ∧
      burstPort img calBlockB 7 = some ic ∧ boot operands img =
        ⟨[.reset, present .loadCal { operands with ib := ib, ic := ic }], none⟩) := by
  unfold boot
  split
  · exact .inl ⟨_, rfl, by simp [*]⟩
  · rename_i id hid
    split
    · rename_i hc
      subst hc
      split
      · rename_i ha hb
        exact .inr ⟨hid, _, _, ha, hb, rfl⟩
      · exact .inl ⟨_, rfl, by simp [hid]⟩
    · rename_i hc
      exact .inl ⟨_, rfl, by simp [hid, hc]⟩

end Sys2Proof.Machine
end

