-- ==== Sys2Proof/Laws/Operands.lean ====
section
/-! SUPPORT. What the operand forms compute, on numbers and on single bits. -/

namespace Sys2Proof.Machine

theorem osrsLegal_iff (b : Byte) : osrsLegal b = true ↔ b.toNat ≤ 5 := by
  simp [osrsLegal, BitVec.le_def]

theorem modeLegal_iff (b : Byte) :
    modeLegal b = true ↔ b.toNat = 0 ∨ b.toNat = 1 ∨ b.toNat = 3 := by
  unfold modeLegal
  revert b
  decide

theorem tSbLegal_iff (b : Byte) : tSbLegal b = true ↔ b.toNat ≤ 7 := by
  simp [tSbLegal, BitVec.le_def]

theorem filterLegal_iff (b : Byte) : filterLegal b = true ↔ b.toNat ≤ 4 := by
  simp [filterLegal, BitVec.le_def]

theorem spi3wLegal_iff (b : Byte) : spi3wLegal b = true ↔ b.toNat ≤ 1 := by
  simp [spi3wLegal, BitVec.le_def]

theorem isRaw20_iff (x : Word) : isRaw20 x = true ↔ x.toNat ≤ 0xFFFFF := by
  simp [isRaw20, BitVec.le_def]

theorem isRaw16_iff (x : Word) : isRaw16 x = true ↔ x.toNat ≤ 0xFFFF := by
  simp [isRaw16, BitVec.le_def]

theorem fieldWord_toNat (v : Byte) (hi lo : Nat) :
    (fieldWord v hi lo).toNat = v.toNat / 2 ^ lo % 2 ^ (hi - lo + 1) := by
  have h : v.toNat / 2 ^ lo % 2 ^ (hi - lo + 1) < 2 ^ 32 :=
    lt_of_le_of_lt ((Nat.mod_le _ _).trans (Nat.div_le_self _ _)) (v.isLt.trans (by norm_num))
  simp only [fieldWord, BitVec.toNat_setWidth, BitVec.extractLsb_toNat, Nat.shiftRight_eq_div_pow]
  exact Nat.mod_eq_of_lt h

theorem fieldByte_toNat (v : Byte) (hi lo : Nat) :
    (fieldByte v hi lo).toNat = v.toNat / 2 ^ lo % 2 ^ (hi - lo + 1) := by
  have h : v.toNat / 2 ^ lo % 2 ^ (hi - lo + 1) < 2 ^ 8 :=
    lt_of_le_of_lt ((Nat.mod_le _ _).trans (Nat.div_le_self _ _)) v.isLt
  simp only [fieldByte, BitVec.toNat_setWidth, BitVec.extractLsb_toNat, Nat.shiftRight_eq_div_pow]
  exact Nat.mod_eq_of_lt h

theorem writeNeeded_iff (hi lo : Nat) (reg code : Byte) :
    writeNeeded hi lo reg code = true ↔ reg.toNat / 2 ^ lo % 2 ^ (hi - lo + 1) ≠ code.toNat := by
  simp [writeNeeded, ← BitVec.toNat_inj, fieldByte_toNat]

theorem le16_toNat (lo hi : Byte) : (le16 lo hi).toNat = lo.toNat + 256 * hi.toNat := by
  have h := lo.isLt
  rw [le16, BitVec.toNat_append, ← Nat.shiftLeft_add_eq_or_of_lt h, Nat.shiftLeft_eq]
  omega

theorem adc16_toNat (msb lsb : Byte) :
    (adc16 msb lsb).toNat = msb.toNat * 256 + lsb.toNat := by
  have hm := msb.isLt
  have hl := lsb.isLt
  have e : (msb.setWidth 32 <<< 8).toNat = msb.toNat <<< 8 := by
    simp only [BitVec.toNat_shiftLeft, BitVec.toNat_setWidth, Nat.shiftLeft_eq]
    omega
  have f : (lsb.setWidth 32).toNat = lsb.toNat := by
    simp only [BitVec.toNat_setWidth]
    omega
  rw [adc16, BitVec.toNat_or, e, f, ← Nat.shiftLeft_add_eq_or_of_lt hl, Nat.shiftLeft_eq]

theorem adc20_toNat (msb lsb xlsb : Byte) :
    (adc20 msb lsb xlsb).toNat = msb.toNat * 4096 + lsb.toNat * 16 + xlsb.toNat / 16 := by
  have hm := msb.isLt
  have hl := lsb.isLt
  have hx := xlsb.isLt
  have e : (msb.setWidth 32 <<< 12).toNat = msb.toNat <<< 12 := by
    simp only [BitVec.toNat_shiftLeft, BitVec.toNat_setWidth, Nat.shiftLeft_eq]
    omega
  have f : (lsb.setWidth 32 <<< 4).toNat = lsb.toNat <<< 4 := by
    simp only [BitVec.toNat_shiftLeft, BitVec.toNat_setWidth, Nat.shiftLeft_eq]
    omega
  have g : (xlsb.setWidth 32 >>> 4).toNat = xlsb.toNat / 16 := by
    simp only [BitVec.toNat_ushiftRight, BitVec.toNat_setWidth, Nat.shiftRight_eq_div_pow]
    omega
  have low : lsb.toNat <<< 4 ||| xlsb.toNat / 16 = lsb.toNat * 16 + xlsb.toNat / 16 := by
    rw [← Nat.shiftLeft_add_eq_or_of_lt (by omega), Nat.shiftLeft_eq]
  rw [adc20, BitVec.or_assoc, BitVec.toNat_or, BitVec.toNat_or, e, f, g, low,
    ← Nat.shiftLeft_add_eq_or_of_lt (by omega), Nat.shiftLeft_eq]
  omega

/-- Bit by bit, the mask of the six register fields (R96). -/
theorem fieldMask_bits : ∀ f ∈ [(2, 0), (7, 5), (4, 2), (1, 0), (0, 0)], ∀ n, n < 8 →
    (fieldMask f.1 f.2).getLsbD n = decide (f.2 ≤ n ∧ n ≤ f.1) := by
  decide

/-- Bit by bit, a byte with a field replaced: the code's bits in the field, shifted up, and the
register's bits outside it. -/
theorem replaceField_getLsbD (hi lo n : Nat) (reg code : Byte) (hn : n < 8) :
    (replaceField hi lo reg code).getLsbD n =
      ((reg.getLsbD n && !(fieldMask hi lo).getLsbD n) ||
        (decide (lo ≤ n) && code.getLsbD (n - lo))) := by
  simp only [replaceField, BitVec.getLsbD_or, BitVec.getLsbD_and, BitVec.getLsbD_not,
    BitVec.getLsbD_shiftLeft, hn, decide_true, Bool.true_and, ← Nat.not_lt, decide_not]

end Sys2Proof.Machine
end

