-- ==== Sys2Proof/Laws/PerInstr.lean ====
section
/-! SUPPORT. The encoding of every command, one lemma per constructor. -/

/-- A command's encoding is one byte, and decoding it gives the command back where it is built in
and names it where it is not (R81 to R83). -/
def Sys2Proof.Laws.Encoding.Statement (i : Sys2Proof.Instr) : Prop :=
  (Sys2Proof.encode i).length = 1 ∧
  ∀ v, Sys2Proof.decodeCmd v (Sys2Proof.opcode i) =
    if i.wellFormed v then .ok i else .error (.notBuilt i)

namespace Sys2Proof.Laws.Encoding

theorem encConfig : Statement .encConfig := ⟨rfl, fun v => by cases v <;> rfl⟩
theorem decCtrlHum : Statement .decCtrlHum := ⟨rfl, fun v => by cases v <;> rfl⟩
theorem decCtrlMeas : Statement .decCtrlMeas := ⟨rfl, fun v => by cases v <;> rfl⟩
theorem decConfig : Statement .decConfig := ⟨rfl, fun v => by cases v <;> rfl⟩
theorem decRaw : Statement .decRaw := ⟨rfl, fun v => by cases v <;> rfl⟩
theorem updOsrsH : Statement .updOsrsH := ⟨rfl, fun v => by cases v <;> rfl⟩
theorem updOsrsT : Statement .updOsrsT := ⟨rfl, fun v => by cases v <;> rfl⟩
theorem updOsrsP : Statement .updOsrsP := ⟨rfl, fun v => by cases v <;> rfl⟩
theorem updMode : Statement .updMode := ⟨rfl, fun v => by cases v <;> rfl⟩
theorem updTSb : Statement .updTSb := ⟨rfl, fun v => by cases v <;> rfl⟩
theorem updFilter : Statement .updFilter := ⟨rfl, fun v => by cases v <;> rfl⟩
theorem updSpi3w : Statement .updSpi3w := ⟨rfl, fun v => by cases v <;> rfl⟩
theorem loadCal : Statement .loadCal := ⟨rfl, fun v => by cases v <;> rfl⟩
theorem compT : Statement .compT := ⟨rfl, fun v => by cases v <;> rfl⟩
theorem compP32 : Statement .compP32 := ⟨rfl, fun v => by cases v <;> rfl⟩
theorem compP64 : Statement .compP64 := ⟨rfl, fun v => by cases v <;> rfl⟩
theorem compH : Statement .compH := ⟨rfl, fun v => by cases v <;> rfl⟩
theorem splitT : Statement .splitT := ⟨rfl, fun v => by cases v <;> rfl⟩
theorem splitP32 : Statement .splitP32 := ⟨rfl, fun v => by cases v <;> rfl⟩
theorem splitP64 : Statement .splitP64 := ⟨rfl, fun v => by cases v <;> rfl⟩
theorem splitH : Statement .splitH := ⟨rfl, fun v => by cases v <;> rfl⟩
theorem fltT : Statement .fltT := ⟨rfl, fun v => by cases v <;> rfl⟩
theorem fltP32 : Statement .fltP32 := ⟨rfl, fun v => by cases v <;> rfl⟩
theorem fltP64 : Statement .fltP64 := ⟨rfl, fun v => by cases v <;> rfl⟩
theorem fltH : Statement .fltH := ⟨rfl, fun v => by cases v <;> rfl⟩

end Sys2Proof.Laws.Encoding
end

