-- ==== Sys2Proof/Tests/Slice0.lean ====
section
/-! SUPPORT. Tests of the model against the worked values of spec/95_test_vectors.md and the examples
of the rules, and for every statement with hypotheses a state and operands that meet them. -/

namespace Sys2Proof.Tests

open Sys2Proof.Machine Sys2Proof.Claims

/-! ### Decoding (opcodes written out from rule R81) and well-formedness -/

theorem test_decode_codec : decodeCmd .both 0b00000001#8 = .ok .encConfig ∧
    decodeCmd .both 0b00000010#8 = .ok .decCtrlHum ∧
    decodeCmd .both 0b00000011#8 = .ok .decCtrlMeas ∧
    decodeCmd .both 0b00000100#8 = .ok .decConfig ∧
    decodeCmd .both 0b00000101#8 = .ok .decRaw := ⟨rfl, rfl, rfl, rfl, rfl⟩

theorem test_decode_update : decodeCmd .both 0b00010000#8 = .ok .updOsrsH ∧
    decodeCmd .both 0b00010001#8 = .ok .updOsrsT ∧
    decodeCmd .both 0b00010010#8 = .ok .updOsrsP ∧
    decodeCmd .both 0b00010011#8 = .ok .updMode ∧
    decodeCmd .both 0b00010100#8 = .ok .updTSb ∧
    decodeCmd .both 0b00010101#8 = .ok .updFilter ∧
    decodeCmd .both 0b00010110#8 = .ok .updSpi3w := ⟨rfl, rfl, rfl, rfl, rfl, rfl, rfl⟩

theorem test_decode_calibration_compensation : decodeCmd .both 0b00100000#8 = .ok .loadCal ∧
    decodeCmd .both 0b00110000#8 = .ok .compT ∧
    decodeCmd .both 0b00110001#8 = .ok .compP32 ∧
    decodeCmd .both 0b00110010#8 = .ok .compP64 ∧
    decodeCmd .both 0b00110011#8 = .ok .compH := ⟨rfl, rfl, rfl, rfl, rfl⟩

theorem test_decode_conversion : decodeCmd .both 0b01000000#8 = .ok .splitT ∧
    decodeCmd .both 0b01000001#8 = .ok .splitP32 ∧
    decodeCmd .both 0b01000010#8 = .ok .splitP64 ∧
    decodeCmd .both 0b01000011#8 = .ok .splitH ∧
    decodeCmd .both 0b01001000#8 = .ok .fltT ∧
    decodeCmd .both 0b01001001#8 = .ok .fltP32 ∧
    decodeCmd .both 0b01001010#8 = .ok .fltP64 ∧
    decodeCmd .both 0b01001011#8 = .ok .fltH := ⟨rfl, rfl, rfl, rfl, rfl, rfl, rfl, rfl⟩

/-- R82: a reserved opcode and a path left out are refused by name. -/
theorem test_decode_refuses : decodeCmd .both 0x07#8 = .error (.reserved 0x07#8) ∧
    decodeCmd .p64Only 0x31#8 = .error (.notBuilt .compP32) ∧
    decodeCmd .p32Only 0x32#8 = .error (.notBuilt .compP64) ∧
    decode .both [] = .error .noByte := ⟨rfl, rfl, rfl, rfl⟩

/-- R81: no two rows of the command map share an opcode. -/
theorem test_opcodes_distinct : opcodeMap.Pairwise (fun a b => a.1 ≠ b.1) := by decide

/-- The two checks of well-formedness, each with a term it refuses (R82). -/
theorem test_wellFormed_refuses : Instr.wellFormed .p64Only .compP32 = false ∧
    Instr.wellFormed .p32Only .compP64 = false ∧
    Instr.wellFormed .p64Only .compP64 = true ∧ Instr.wellFormed .p32Only .compP32 = true := by
  decide

theorem test_decodeTableWord : decodeTableWord 8 0x4A = some .fltP64 ∧
    decodeTableWord 8 0x00 = none := by decide

/-! ### Small states -/

/-- What the host sees of a next state. -/
def seen (r : Result) : Option HostView :=
  match r with
  | .next t => some (hostView t)
  | .fault _ => none
  | .refused _ => none

/-- A completion with OK and these latches. -/
def okView (l : Latches) : Option HostView := some ⟨some .ok, l, none⟩

/-- A parameter error. -/
def paramView : Option HostView := some ⟨some .paramError, Latches.bottom, none⟩

/-- A fault. -/
def faultView (k : FaultKind) : Option HostView := some ⟨none, Latches.bottom, some k⟩

/-- The example calibration of spec/95_test_vectors.md, 2.1: the bytes. -/
def exampleIb : Vector Byte 26 :=
  #v[0x70, 0x6B, 0x43, 0x67, 0x18, 0xFC, 0x7D, 0x8E, 0x43, 0xD6, 0xD0, 0x0B, 0x27, 0x0B, 0x8C, 0x00,
     0xF9, 0xFF, 0x8C, 0x3C, 0xF8, 0xC6, 0x70, 0x17, 0x00, 0x4B]

/-- Block B of the example calibration. -/
def exampleIc : Vector Byte 7 := #v[0x6A, 0x01, 0x00, 0x13, 0x29, 0x03, 0x1E]

/-- The example calibration: the coefficients the spec lists for those bytes. -/
def exampleCal : Cal where
  t1 := 27504
  t2 := 26435
  t3 := BitVec.ofInt 16 (-1000)
  p1 := 36477
  p2 := BitVec.ofInt 16 (-10685)
  p3 := 3024
  p4 := 2855
  p5 := 140
  p6 := BitVec.ofInt 16 (-7)
  p7 := 15500
  p8 := BitVec.ofInt 16 (-14600)
  p9 := 6000
  h1 := 75
  h2 := 362
  h3 := 0
  h4 := 313
  h5 := 50
  h6 := 30

/-- Ports with IX. -/
def onIx (n : Nat) : Ports := { Ports.idle with ix := BitVec.ofNat 32 n }

/-- Ports with IR and IV. -/
def onReg (ir iv : Byte) : Ports := { Ports.idle with ir := ir, iv := iv }

/-- Ports with ICFG. -/
def onIcfg (c : Icfg) : Ports := { Ports.idle with icfg := c }

/-- Reset, with these ports. -/
def fresh (p : Ports) : State := { State.reset with ports := p }

/-- The example calibration is loaded. -/
def loaded (p : Ports) : State := { fresh p with cal := some exampleCal, calValid := true }

/-- And TFINE holds f. -/
def fine (f : Word) (p : Ports) : State := { loaded p with tfine := some f, tfineValid := true }

/-- A halted CERC. -/
def stopped : State := { State.reset with fault := some .tfineUnset }

/-- The ConfigureAll scenario (L1-1). -/
def scenario : Icfg := ⟨2, 2, 3, 3, 4, 1, 0⟩

/-- The largest legal codes (R121). -/
def largest : Icfg := ⟨5, 5, 5, 3, 7, 4, 1⟩

/-! ### The codec (R121 to R133, spec/95_test_vectors.md 2.2) -/

theorem test_encConfig : seen (exec .encConfig (fresh (onIcfg largest))) =
    okView { Latches.bottom with yb0 := some 0x05, yb1 := some 0xB7, yb2 := some 0xF1 } := by decide

theorem test_encConfig_mode2 :
    seen (exec .encConfig (fresh (onIcfg { scenario with mode := 2 }))) = paramView := by decide

theorem test_decCtrlHum : seen (exec .decCtrlHum (fresh (onReg 0xFE 0))) =
    okView { Latches.bottom with y0 := some 6, yv := some 0 } := by decide

theorem test_decCtrlMeas : seen (exec .decCtrlMeas (fresh (onReg 0xFE 0))) =
    okView { Latches.bottom with y0 := some 7, y1 := some 7, y2 := some 2, yv := some 0b100 } := by
  decide

theorem test_decConfig : seen (exec .decConfig (fresh (onReg 0x16 0))) =
    okView { Latches.bottom with y0 := some 0, y1 := some 5, y2 := some 0, yv := some 0b101 } := by
  decide

theorem test_decRaw :
    seen (exec .decRaw (fresh { Ports.idle with
      ib := withBurst Ports.idle.ib #v[0x65, 0x5A, 0xC0, 0x7E, 0xED, 0x00, 0x75, 0x30] })) =
    okView { Latches.bottom with y0 := some 415148, y1 := some 519888, y2 := some 30000 } := by
  decide

theorem test_updOsrsH : seen (exec .updOsrsH (fresh (onReg 0xA3 5))) =
    okView { Latches.bottom with yb0 := some 0xA5, yw := some true } := by decide

theorem test_updOsrsT : seen (exec .updOsrsT (fresh (onReg 0x4B 5))) =
    okView { Latches.bottom with yb0 := some 0xAB, yw := some true } := by decide

theorem test_updOsrsP : seen (exec .updOsrsP (fresh (onReg 0x4B 0))) =
    okView { Latches.bottom with yb0 := some 0x43, yw := some true } := by decide

/-- L1-5: the current code 2 differs from 1 in its raw bits. -/
theorem test_updMode : seen (exec .updMode (fresh (onReg 0x4A 1))) =
    okView { Latches.bottom with yb0 := some 0x49, yw := some true } := by decide

theorem test_updMode_alias : seen (exec .updMode (fresh (onReg 0x4B 2))) = paramView := by decide

theorem test_updTSb : seen (exec .updTSb (fresh (onReg 0xE4 7))) =
    okView { Latches.bottom with yb0 := some 0xE4, yw := some false } := by decide

theorem test_updFilter : seen (exec .updFilter (fresh (onReg 0x84 4))) =
    okView { Latches.bottom with yb0 := some 0x90, yw := some true } := by decide

theorem test_updFilter_illegal : seen (exec .updFilter (fresh (onReg 0x84 5))) = paramView := by
  decide

/-- The unassigned bit 1 is kept (R133). -/
theorem test_updSpi3w : seen (exec .updSpi3w (fresh (onReg 0x86 1))) =
    okView { Latches.bottom with yb0 := some 0x87, yw := some true } := by decide

/-! ### Calibration (R161, L1-8) -/

theorem test_parse_example : parseCal Config.default exampleIb exampleIc = exampleCal := by decide

/-- L1-8, the packed coefficients of the synthetic block, under both values of H45_SIGN_EXTEND. -/
theorem test_parse_packed :
    (packed12 false 0x9A 0xC).toInt = 2476 ∧ (packed12 true 0x9A 0xC).toInt = -1620 ∧
    (packed12 false 0xDE 0xB).toInt = 3563 ∧ (packed12 true 0xDE 0xB).toInt = -533 := by decide

theorem test_loadCal : seen (exec .loadCal (fresh { Ports.idle with ib := exampleIb })) =
    okView Latches.bottom := by decide

theorem test_loadCal_reload : seen (exec .loadCal (loaded Ports.idle)) = faultView .calReload := by
  decide

/-! ### Compensation (R184 to R197, spec/95_test_vectors.md 2.4) -/

theorem test_compT : seen (exec .compT (loaded (onIx 0))) =
    okView { Latches.bottom with y0 := some (BitVec.ofInt 32 (-14088)) } := by decide

/-- TFINE under both scalings of a negative value (R184, corner case c). -/
theorem test_compT_fine : (tempFine .floor exampleCal 0).toInt = -721301 ∧
    (tempFine .trunc exampleCal 0).toInt = -721299 := by decide

theorem test_compP32 : seen (exec .compP32 (fine 128422 (onIx 415148))) =
    okView { Latches.bottom with y0 := some 100656 } := by decide

/-- The else branch of R189. -/
theorem test_compP32_else : seen (exec .compP32 (fine 128422 (onIx 0))) =
    okView { Latches.bottom with y0 := some 173204 } := by decide

theorem test_compP64 : seen (exec .compP64 (fine 128422 (onIx 415148))) =
    okView { Latches.bottom with y0 := some 25767233 } := by decide

/-- A negative p is truncated to its low 32 bits (R193, corner case c). -/
theorem test_compP64_negative : seen (exec .compP64 (fine 128422 (onIx 0xFFFFF))) =
    okView { Latches.bottom with y0 := some 4293269792 } := by decide

theorem test_compH : seen (exec .compH (fine 128422 (onIx 30000))) =
    okView { Latches.bottom with y0 := some 56317 } := by decide

/-- The wrapped H4 << 20 and the upper clamp (R197, corner case b). -/
theorem test_compH_wrap : humidity { exampleCal with h4 := 4095 } 128422 30000 = 102400 := by decide

/-- R195. -/
theorem test_sdiv_wraps : (BitVec.intMin 64).sdiv (-1#64) = BitVec.intMin 64 := by decide

/-- R255: the operand first, then CAL, then TFINE; decoding before all. -/
theorem test_priority : seen (exec .compT (fresh (onIx 0x100000))) = paramView ∧
    seen (exec .compH (fresh (onIx 30000))) = faultView .calUnset ∧
    seen (exec .compP32 (loaded (onIx 415148))) = faultView .tfineUnset ∧
    seen (exec .compP32 { loaded (onIx 0x100000) with
      params := { Config.default with press := .p64Only } }) = faultView .illegalCmd := by decide

/-! ### Conversion (R221 to R230, spec/95_test_vectors.md 2.5) -/

theorem test_splitT : seen (exec .splitT (fresh (onIx 0xFFFFFDF5))) =
    okView { Latches.bottom with
      y0 := some (BitVec.ofInt 32 (-5)), y1 := some (BitVec.ofInt 32 (-23)) } := by decide

theorem test_splitT_min : seen (exec .splitT (fresh (onIx 0x80000000))) =
    okView { Latches.bottom with
      y0 := some (BitVec.ofInt 32 (-21474836)), y1 := some (BitVec.ofInt 32 (-48)) } := by decide

theorem test_splitP32 : seen (exec .splitP32 (fresh (onIx 4294967295))) =
    okView { Latches.bottom with y0 := some 42949672, y1 := some 95 } := by decide

theorem test_splitP64 : seen (exec .splitP64 (fresh (onIx 4294967295))) =
    okView { Latches.bottom with y0 := some 167772, y1 := some 159 } := by decide

theorem test_splitH : seen (exec .splitH (fresh (onIx 4294967295))) =
    okView { Latches.bottom with y0 := some 4194303, y1 := some 999 } := by decide

theorem test_fltT : seen (exec .fltT (fresh (onIx 0xFFFFFDF5))) =
    okView { Latches.bottom with yf := some (.b32 0xC0A75C29) } := by decide

theorem test_fltT_max : seen (exec .fltT (fresh (onIx 2147483647))) =
    okView { Latches.bottom with yf := some (.b32 0x4BA3D70A) } := by decide

theorem test_fltP32 : seen (exec .fltP32 (fresh (onIx 100656))) =
    okView { Latches.bottom with yf := some (.b32 0x447BA3D7) } := by decide

theorem test_fltP64 : seen (exec .fltP64 (fresh (onIx 25767233))) =
    okView { Latches.bottom with yf := some (.b32 0x447BA214) } := by decide

theorem test_fltH : seen (exec .fltH (fresh (onIx 4294967295))) =
    okView { Latches.bottom with yf := some (.b32 0x4A800000) } := by decide

/-! ### Steps, reset and the host's side -/

/-- 2.6: a reserved opcode faults; a halted CERC has no step; reset leads out. -/
theorem test_reserved : seen (step (State.reset.withFetchWord 8 0x07)) = faultView .illegalCmd := by
  decide

theorem test_halted :
    step { stopped with host := [.command Ports.idle] } = .fault (.halted .tfineUnset) := rfl

theorem test_reset_leads_out : seen (step { stopped with host := [.reset] }) =
    some ⟨none, Latches.bottom, none⟩ := by decide

theorem test_idle : step State.reset = .refused .noCommand := rfl

/-- R253's codes. -/
theorem test_faultCode : faultCode State.reset.fault = 0 ∧ faultCode (some .illegalCmd) = 1 ∧
    faultCode (some .calUnset) = 2 ∧ faultCode (some .tfineUnset) = 3 ∧
    faultCode (some .calReload) = 4 := by decide

/-- L1-2: on the wrong chip ID no LOAD_CAL is issued (R52). -/
theorem test_boot_wrong_id : boot Ports.idle [(0xD0, 0x58)] = ⟨[.reset], some .idError⟩ := by decide

/-- R291: no byte of block A is read, and CERC, with CAL loaded before, has been reset. -/
theorem test_boot_failed_read : boot Ports.idle [(0xD0, 0x60)] = ⟨[.reset], some .interfaceError⟩ ∧
    (match step { loaded Ports.idle with host := bootEvents Ports.idle [(0xD0, 0x60)] } with
      | .next t => t.calValid
      | .fault _ => true
      | .refused _ => true) = false := by decide

/-- R51, R54 to R56: a row's first register is the byte of its port that the block's address gives. -/
theorem test_registerMap_ports : (registerMap.filterMap (fun row =>
      row.port.map (fun b => (row.addr.toNat, row.length, b)))) =
    [(0x88, 26, ⟨.ib, 0⟩), (0xE1, 7, ⟨.ic, 0⟩), (0xF7, 3, ⟨.ib, 0⟩), (0xFA, 3, ⟨.ib, 3⟩),
      (0xFD, 2, ⟨.ib, 6⟩)] := by decide

/-- Entry 15: the last register alone can be read, and no burst runs past it. -/
theorem test_burst_end : burst [(0xFF, 0x11), (0x00, 0x22)] 0xFF 1 = some [0x11] ∧
    burst [(0xFF, 0x11), (0x00, 0x22)] 0xFF 2 = none := by decide

/-- R286: ctrl_hum, config, ctrl_meas. -/
theorem test_configWrites : configWrites { State.reset with
      status := some .ok,
      latch := { Latches.bottom with yb0 := some 0x03, yb1 := some 0x4B, yb2 := some 0x84 } } =
    [(0xF2, 0x03), (0xF5, 0x84), (0xF4, 0x4B)] := by decide

/-- R91: 500 ms is code 4. -/
theorem test_standby : standbyTenthsMs 4 = some 5000 ∧ oversampling 3 = some 4 ∧
    sensorMode 2 = some .forced ∧ filterCoefficient 1 = some 2 := by decide

/-- R85: MEASURE32 with the burst of 2.1: the operands of COMP_T, COMP_P32 and COMP_H. -/
theorem test_measure32 :
    (measure32 Ports.idle #v[0x65, 0x5A, 0xC0, 0x7E, 0xED, 0x00, 0x75, 0x30]).map (fun e =>
      match e with
      | .command p => (p.cmd.toNat, p.ix.toNat)
      | .reset => (0, 0)) = [(0x05, 0), (0x30, 519888), (0x31, 415148), (0x33, 30000)] := by decide

/-! ### Hypotheses that can be met, one theorem per statement that has some -/

theorem test_witness_DecodeOfEncode : Instr.wellFormed .p32Only .compP32 = true := by decide

/-- Both kinds of illegal opcode, at the ends of the ranges. -/
theorem test_witness_ReservedOpcodeFaults :
    (stopped.fault ≠ none ∧ State.reset.fault = none) ∧
    isReserved (BitVec.toNat 0x00#8) ∧ isReserved (BitVec.toNat 0xFF#8) ∧
    isReserved (BitVec.toNat 0x4C#8) ∧ isLeftOut .p64Only (BitVec.toNat 0x31#8) ∧
    isLeftOut .p32Only (BitVec.toNat 0x32#8) := by
  unfold isReserved isLeftOut; decide

theorem test_witness_StepRunsDecodedCommand :
    decode State.reset.params.press [(0x33#8)] = .ok (.compH, []) := rfl

/-- A reset event in a halted state, and a command that answers a next state. -/
theorem test_witness_ResetEventClearsEverything :
    ({ stopped with host := [.reset] } : State).host = [.reset] ∧
    (seen (step { loaded Ports.idle with
      host := [.command { onIx 0 with cmd := 0x30 }] })).isSome = true := by decide

theorem test_witness_HaltedAcceptsNoCommand : stopped.fault = some .tfineUnset ∧
    (runCommands State.reset [{ onIx 7 with cmd := 0x40 }]).success = true := by decide

/-- A fault of a command, and one of a reserved opcode. -/
theorem test_witness_FaultIsPrecise :
    seen (step { State.reset with host := [.command { onIx 519888 with cmd := 0x30 }] }) =
      faultView .calUnset ∧
    seen (step { State.reset with host := [.command { onIx 0 with cmd := 0xFF }] }) =
      faultView .illegalCmd := by decide

/-- States of every clause: a path left out, a parameter error, a fault of the state, a completion. -/
theorem test_witness_CommandOutcomePriority :
    (loaded (onIx 0x100000)).calFlag ∧ (loaded (onIx 0x100000)).tfineFlag ∧
    (loaded (onIx 0x100000)).fault = none ∧ paramCause .compP32 (onIx 0x100000) ∧
    ¬ paramCause .compP32 (onIx 0xFFFFF) ∧ leftOut .p64Only .compP32 ∧ ¬ leftOut .both .compP32 ∧
    stateFault .compP32 (loaded (onIx 0xFFFFF)) = some .tfineUnset ∧
    stateFault .compP32 (fine 0 (onIx 0xFFFFF)) = none := by
  unfold paramCause leftOut; decide

/-- A state that meets the invariant and steps. -/
theorem test_witness_StepKeepsInv :
    (State.reset.withFetchWord 8 0x48).calFlag ∧ (State.reset.withFetchWord 8 0x48).tfineFlag ∧
    (State.reset.withFetchWord 8 0x48).latchesQuiet ∧
    (seen (step (State.reset.withFetchWord 8 0x48))).isSome = true := by
  refine ⟨rfl, rfl, fun _ => rfl, by decide⟩

theorem test_witness_invariant_holds : (State.reset.withFetchWord 8 0x48).Inv where
  calFlag := rfl
  tfineFlag := rfl
  tfineAfterCal := by decide
  latchesQuiet := fun _ => rfl
  haltedQuiet := by decide
  statusWritten := by decide
  packedRange := fun _ h => by cases h
  yfOfFormat := fun _ h => by cases h

/-- The three ends of LatchWriteDiscipline. -/
theorem test_witness_LatchWriteDiscipline :
    (seen (exec .compT (loaded (onIx 0xFFFFF)))).map (fun v => v.status) = some (some .ok) ∧
    (seen (exec .compT (loaded (onIx 0x100000)))).map (fun v => v.status) =
      some (some .paramError) ∧
    (seen (exec .compT (fresh (onIx 0)))).map (fun v => v.status) = some none := by decide

theorem test_witness_CommandFrame : (seen (exec .compH (fine 0 (onIx 0xFFFF)))).isSome = true := by
  decide

theorem test_witness_CalWrittenOnlyByLoadCal :
    (match exec .loadCal (fresh (onIx 0)) with
      | .next t => t.calValid
      | .fault _ => false
      | .refused _ => false) = true ∧ (loaded (onIx 0)).calFlag := by decide

theorem test_witness_TfineWrittenOnlyByCompT :
    (match exec .compT (loaded (onIx 0)) with
      | .next t => t.tfineValid
      | .fault _ => false
      | .refused _ => false) = true ∧ (loaded (onIx 0)).tfineFlag := by decide

theorem test_witness_CodecIsStateless : isCodec .updSpi3w ∧ (fresh (onReg 1 1)).fault = none ∧
    (loaded (onReg 1 1)).fault = none ∧ (fresh (onReg 1 1)).ports = (loaded (onReg 1 1)).ports := by
  unfold isCodec; decide

theorem test_witness_ConversionIsStateless : isConversion .fltH ∧ (fresh (onIx 9)).fault = none ∧
    (loaded (onIx 9)).fault = none ∧ (fresh (onIx 9)).ports.ix = (loaded (onIx 9)).ports.ix ∧
    (fresh (onIx 9)).params = (loaded (onIx 9)).params := by
  unfold isConversion; decide

theorem test_witness_CompensationDependsOnlyOnInputs : isCompensation .compP64 ∧
    (fine 5 (onIx 9)).cal = (fine 5 { onIx 9 with ir := 3 }).cal ∧
    (fine 5 (onIx 9)).ports.ix = (fine 5 { onIx 9 with ir := 3 }).ports.ix ∧
    (seen (exec .compP64 (fine 5 (onIx 9)))).isSome = true ∧
    (seen (exec .compP64 (fine 5 { onIx 9 with ir := 3 }))).isSome = true := by
  unfold isCompensation; decide

theorem test_witness_EncConfigResult : icfgInSets largest ∧
    ¬ icfgInSets { largest with osrsT := 6 } ∧ ¬ icfgInSets { largest with mode := 2 } ∧
    (fresh (onIcfg largest)).fault = none := by
  unfold icfgInSets osrsSet modeSet; decide

/-- The hypothesis of DecCtrlHumResult, DecCtrlMeasResult, DecConfigResult, DecRawResult,
SplitTResult, SplitP32Result, SplitP64Result and SplitHResult: a state that is not halted. -/
theorem test_witness_decode_and_split_results : (fresh (onReg 0xFF 0)).fault = none ∧
    (fresh (onIx 0xFFFFFFFF)).fault = none := by decide

/-- Every update, at the ends of its legal set. -/
theorem test_witness_FieldUpdateResult :
    Updates .updOsrsH 2 0 osrsSet ∧ Updates .updOsrsT 7 5 osrsSet ∧
    Updates .updOsrsP 4 2 osrsSet ∧ Updates .updMode 1 0 modeSet ∧
    Updates .updTSb 7 5 (fun n => n ≤ 7) ∧ Updates .updFilter 4 2 (fun n => n ≤ 4) ∧
    Updates .updSpi3w 0 0 (fun n => n ≤ 1) ∧ osrsSet 5 ∧ ¬ osrsSet 6 ∧ modeSet 3 ∧ ¬ modeSet 2 :=
  ⟨.osrsH, .osrsT, .osrsP, .mode, .tSb, .filter, .spi3w, by unfold osrsSet; decide,
    by unfold osrsSet; decide, by unfold modeSet; decide, by unfold modeSet; decide⟩

theorem test_witness_EncodeThenDecodeRegisters : icfgInSets scenario ∧
    seen (exec .encConfig (fresh (onIcfg scenario))) = okView { Latches.bottom with
      yb0 := some (fresh (onReg 0x03 0)).ports.ir, yb1 := some (fresh (onReg 0x4B 0)).ports.ir,
      yb2 := some (fresh (onReg 0x84 0)).ports.ir } := by
  unfold icfgInSets osrsSet modeSet; decide

/-- A triple that encodes again, and a ctrl_meas byte with mode 2. -/
theorem test_witness_DecodeThenEncodeRegisters :
    seen (exec .decCtrlHum (fresh (onReg 0xFB 0))) = okView { Latches.bottom with
      y0 := some (scenario.osrsH.zeroExtend 32), yv := some 0b001 } ∧
    seen (exec .decCtrlMeas (fresh (onReg 0x4B 0))) = okView { Latches.bottom with
      y0 := some (scenario.osrsT.zeroExtend 32), y1 := some (scenario.osrsP.zeroExtend 32),
      y2 := some (scenario.mode.zeroExtend 32), yv := some 0b111 } ∧
    seen (exec .decConfig (fresh (onReg 0x86 0))) = okView { Latches.bottom with
      y0 := some (scenario.tSb.zeroExtend 32), y1 := some (scenario.filter.zeroExtend 32),
      y2 := some (scenario.spi3w.zeroExtend 32), yv := some 0b111 } ∧
    seen (exec .decCtrlMeas (fresh (onReg 0x4A 0))) = okView { Latches.bottom with
      y0 := some 2, y1 := some 2, y2 := some 2, yv := some 0b111 } := by decide

theorem test_witness_FieldUpdateIdempotent : osrsSet (fresh (onReg 0xA3 3)).ports.iv.toNat ∧
    (fresh (onReg 0xA3 3)).ports.iv.toNat = bitsOf (fresh (onReg 0xA3 3)).ports.ir 2 0 ∧
    seen (exec .updOsrsH (fresh (onReg 0xA6 3))) = okView { Latches.bottom with
      yb0 := some (fresh (onReg 0xA3 3)).ports.ir, yw := some true } := by
  unfold osrsSet; decide

/-- t_sb and filter of one config byte, in both orders. -/
theorem test_witness_FieldUpdatesAreLocal : Updates .updTSb 7 5 (fun n => n ≤ 7) ∧
    Updates .updFilter 4 2 (fun n => n ≤ 4) ∧ (4 < 5) ∧
    seen (exec .updTSb (fresh (onReg 0x84 7))) = okView { Latches.bottom with
      yb0 := some (fresh (onReg 0xE4 4)).ports.ir, yw := some true } ∧
    seen (exec .updFilter (fresh (onReg 0xE4 4))) = okView { Latches.bottom with
      yb0 := some 0xF0, yw := some true } ∧
    seen (exec .updFilter (fresh (onReg 0x84 4))) = okView { Latches.bottom with
      yb0 := some (fresh (onReg 0x90 7)).ports.ir, yw := some true } ∧
    seen (exec .updTSb (fresh (onReg 0x90 7))) = okView { Latches.bottom with
      yb0 := some 0xF0, yw := some true } :=
  ⟨.tSb, .filter, by decide⟩

theorem test_witness_WriteBackOnlyWhenChanged :
    Updates .updFilter 4 2 (fun n => n ≤ 4) ∧
    (seen (exec .updFilter (fresh (onReg 0x84 1)))).map (fun v => v.status) = some (some .ok) :=
  ⟨.filter, by decide⟩

theorem test_witness_LoadCalResult : (fresh Ports.idle).fault = none ∧
    (fresh Ports.idle).calValid = false ∧ (loaded Ports.idle).calValid = true ∧
    (loaded Ports.idle).fault = none := by decide

/-- Two blocks that differ only in the byte not named, IB[24]. -/
theorem test_witness_ParseReadsOnlyNamedBytes :
    (∀ n, (h : n < 26) → n ≠ (if Config.default.h1Index = .i25 then 24 else 25) →
      exampleIb[n] = (exampleIb.set 24 0xAA)[n]) ∧ exampleIb ≠ exampleIb.set 24 0xAA ∧
    (seen (exec .loadCal (fresh { Ports.idle with ib := exampleIb.set 24 0xAA }))).isSome = true := by
  decide

/-- LOAD_CAL in both builds. -/
theorem test_witness_PackedCoefficientRanges :
    (fresh Ports.idle).calValid = false ∧
    (seen (exec .loadCal (fresh Ports.idle))).isSome = true ∧
    (seen (exec .loadCal { fresh Ports.idle with
      params := { Config.default with h45SignExtend := true } })).isSome = true := by decide

theorem test_witness_ScalingPrimitive : (1 ≤ 14) ∧ (14 ≤ 14) ∧ 0 ≤ (0x7FFFFFFF#32).toInt := by
  decide

/-- The clauses of CompTResult, CompP32Result, CompP64Result and CompHResult, at the ends of IX's
range. -/
theorem test_witness_CompResults :
    (fine 128422 (onIx 0xFFFFF)).ports.ix.toNat = 0xFFFFF ∧
    0xFFFFF < (fine 128422 (onIx 0x100000)).ports.ix.toNat ∧
    (fine 128422 (onIx 0xFFFF)).ports.ix.toNat = 0xFFFF ∧
    0xFFFF < (fine 128422 (onIx 0x10000)).ports.ix.toNat ∧
    (fine 128422 (onIx 0)).fault = none ∧ (fine 128422 (onIx 0)).calValid = true ∧
    (fine 128422 (onIx 0)).cal = some exampleCal ∧ (fine 128422 (onIx 0)).tfineValid = true ∧
    (fine 128422 (onIx 0)).tfine = some 128422 ∧ (loaded (onIx 0)).tfineValid = false ∧
    (loaded (onIx 0)).cal = some exampleCal ∧ (fresh (onIx 0)).calValid = false ∧
    (fine 128422 (onIx 0)).params.press ≠ .p64Only ∧
    (fine 128422 (onIx 0)).params.press ≠ .p32Only := by decide

theorem test_witness_HumidityNeverAboveFull :
    seen (exec .compH (fine 128422 (onIx 0xFFFF))) =
      okView { Latches.bottom with y0 := some 102400 } := by decide

/-- L1-3: the example calibration with P1 = 0. -/
theorem test_witness_ZeroP1GivesZeroPressure :
    seen (exec .compP32 { fine 128422 (onIx 415148) with
      cal := some { exampleCal with p1 := 0 } }) = okView { Latches.bottom with y0 := some 0 } ∧
    seen (exec .compP64 { fine 128422 (onIx 415148) with
      cal := some { exampleCal with p1 := 0 } }) = okView { Latches.bottom with y0 := some 0 } := by
  decide

/-- SplitReconstructs and SplitFractionRanges: each split with both latches written, SPLIT_T at -5,
where only the fraction shows the sign. -/
theorem test_witness_SplitLaws :
    seen (exec .splitT (fresh (onIx 0xFFFFFFFB))) = okView { Latches.bottom with
      y0 := some 0, y1 := some (BitVec.ofInt 32 (-5)) } ∧
    seen (exec .splitP32 (fresh (onIx 0))) = okView { Latches.bottom with
      y0 := some 0, y1 := some 0 } ∧
    seen (exec .splitP64 (fresh (onIx 256))) = okView { Latches.bottom with
      y0 := some 0, y1 := some 10 } ∧
    seen (exec .splitH (fresh (onIx 1023))) = okView { Latches.bottom with
      y0 := some 0, y1 := some 999 } := by decide

/-- FloatCommandResult and FloatCommandRoundsTwice, at the last operand of each command. -/
theorem test_witness_FloatCommands :
    floatOperands (fresh (onIx 0xFFFFFFFF)) .fltT = some (-1, 100) ∧
    floatOperands (fresh (onIx 0xFFFFFFFF)) .fltP32 = some (4294967295, 100) ∧
    floatOperands (fresh (onIx 0xFFFFFFFF)) .fltP64 = some (1677721599, 10000) ∧
    floatOperands (fresh (onIx 0xFFFFFFFF)) .fltH = some (4194303999, 1000) := by decide

/-- RunIndexCountsCommands and QueuedRunMatchesIssuedRun: a run of two commands that succeeds, one of
them with a parameter error. -/
theorem test_witness_RunLaws :
    (runCommands State.reset [{ onReg 0x84 5 with cmd := 0x15 }, { onIx 7 with cmd := 0x40 }]).success
      = true := by decide

theorem test_witness_BurstReadsConsecutiveRegisters :
    burst [(0xE1, 0x6A), (0xE2, 0x01)] 0xE1 2 = some [0x6A, 0x01] ∧
    burst [(0xE1, 0x6A), (0xE2, 0x01)] 0xE1 3 = none := by decide

/-- The registers of the example calibration and of the burst of spec/95_test_vectors.md 2.1. -/
def exampleImage : Image :=
  (0xD0, 0x60) ::
    ((List.range 26).zip exampleIb.toList).map (fun c => (calBlockA + BitVec.ofNat 8 c.1, c.2)) ++
    ((List.range 7).zip exampleIc.toList).map (fun c => (calBlockB + BitVec.ofNat 8 c.1, c.2)) ++
    ((List.range 8).zip [0x65, 0x5A, 0xC0, 0x7E, 0xED, 0x00, 0x75, 0x30]).map
      (fun c => (adcReadout + BitVec.ofNat 8 c.1, c.2))

/-- Every hypothesis of BootLoadsCalibrationOrLeavesReset, at the last byte of each block. -/
theorem test_witness_BootLoadsCalibrationOrLeavesReset :
    readReg exampleImage 0xD0 = some 0x60 ∧
    burstPort exampleImage 0x88 26 = some exampleIb ∧
    burstPort exampleImage 0xE1 7 = some exampleIc ∧
    readReg exampleImage 0xA1 = some exampleIb[25] ∧
    readReg exampleImage 0xE7 = some exampleIc[6] ∧
    readReg [(0xD0, 0x58)] 0xD0 = some 0x58 ∧ readReg [(0xD0, 0x60)] 0x88 = none := by decide

theorem test_witness_registersHold : registersHold exampleImage 0xE1 exampleIc := by
  unfold registersHold; decide

theorem test_witness_MeasurementReadsAdcRegisters :
    registersHold exampleImage 0xF7 #v[0x65, 0x5A, 0xC0, 0x7E, 0xED, 0x00, 0x75, 0x30] ∧
    readReg [] 0xF7 = none ∧ State.reset.fault = none := by
  unfold registersHold; decide

end Sys2Proof.Tests
end

section
/-! PROOFS. Decoding one byte, and a step whose host event is a command (spec/00_scope.md rule R2,
spec/10_state.md rule R31, spec/20_memory.md rule R67). -/

namespace Sys2Proof.Machine

/-- The stream decoder consumes one byte and adds nothing to the one-byte decoder (R83). -/
theorem decode_cons_eq_ok_iff {v : PressVariants} {op : Byte} {bytes rest : List Byte} {i : Instr} :
    decode v (op :: bytes) = .ok (i, rest) ↔ decodeCmd v op = .ok i ∧ bytes = rest := by
  cases hcmd : decodeCmd v op with
  | ok j => simp [decode, hcmd]
  | error e => simp [decode, hcmd]

/-- What a step does with a command event, whatever its opcode: sample, then decode. -/
theorem step_of_command {s : State} {p : Ports} {rest : List HostEvent}
    (hhost : s.host = .command p :: rest) : step s = runSampled exec (s.sample p rest) := by
  simp [step, stepEvent, hhost]

theorem runSampled_of_decodeCmd_ok {meaning : Instr → State → Result} {s : State} {i : Instr}
    (hcmd : decodeCmd s.params.press s.ports.cmd = .ok i) : runSampled meaning s = meaning i s := by
  simp [runSampled, hcmd]

/-- Settles O4: sampling changes neither the build nor the presented opcode, so the command the
premise decodes is the one the step runs. -/
theorem stepRunsDecodedCommand : Obligations.StepRunsDecodedCommand := by
  intro s p rest i hhost hdec
  obtain ⟨hcmd, -⟩ := decode_cons_eq_ok_iff.mp hdec
  have hsampled : decodeCmd (s.sample p rest).params.press (s.sample p rest).ports.cmd = .ok i :=
    hcmd
  calc step s = runSampled exec (s.sample p rest) := step_of_command hhost
    _ = exec i (s.sample p rest) := runSampled_of_decodeCmd_ok hsampled

end Sys2Proof.Machine
end

section
/-! PROOFS. How a command ends: the registers a completion with OK has written, the frame all
commands share, and the latches each command leaves (spec/10_state.md rules R22 to R25, R33, R36). -/

namespace Sys2Proof.Machine

open Sys2Proof.Claims

/-! ### The registers a completion with OK has written -/

/-- `Written i s u`: u is s after the writes to CAL and TFINE of a completion of i with OK. -/
inductive Written : Instr → State → State → Prop where
  | nothing {i : Instr} {s : State} (hcal : i ≠ .loadCal) (htfine : i ≠ .compT) : Written i s s
  | cal {s : State} (hunset : s.calValid = false) :
      Written .loadCal s (s.writeCal (parseCal s.params s.ports.ib s.ports.ic))
  | tfine {s : State} (hcal : s.calValid = true) (fine : Word) :
      Written .compT s (s.writeTfine fine)

/-- Neither register write touches FAULT or the model's own fields. -/
theorem Written.frame {i : Instr} {s u : State} (h : Written i s u) :
    u.fault = s.fault ∧ u.params = s.params ∧ u.ports = s.ports ∧ u.host = s.host ∧
      u.index = s.index := by
  cases h <;> exact ⟨rfl, rfl, rfl, rfl, rfl⟩

/-- The three ends of a command: `exec_next` with the end with OK sharpened, since a LOAD_CAL or
COMP_T that completes with OK has made its write. -/
theorem exec_ends {i : Instr} {s t : State} (h : exec i s = .next t) :
    s.fault = none ∧
    ((∃ k, t = s.takeFault k) ∨ t = s.completeParamError ∨
      ∃ u l, Written i s u ∧ t = u.completeOk l) := by
  obtain ⟨hrun, hend⟩ := exec_next h
  refine ⟨hrun, ?_⟩
  obtain (hfault | hparam) | ⟨l, hok⟩ | ⟨rfl, hunset, ht⟩ | ⟨rfl, hcal, f, l, ht⟩ := hend
  · exact .inl hfault
  · exact .inr (.inl hparam)
  · by_cases hload : i = .loadCal
    · subst hload
      obtain ⟨-, ⟨hunset, ht⟩ | ⟨-, ht⟩⟩ := execLoadCal_next h
      · exact .inr (.inr ⟨_, _, .cal hunset, ht⟩)
      · exact .inl ⟨_, ht⟩
    by_cases hcomp : i = .compT
    · subst hcomp
      obtain ⟨-, ⟨c, -, hcal, -, ht⟩ | ⟨-, -, ht⟩ | ⟨-, ht⟩⟩ := execCompT_next h
      · exact .inr (.inr ⟨_, _, .tfine hcal _, ht⟩)
      · exact .inl ⟨_, ht⟩
      · exact .inr (.inl ht)
    exact .inr (.inr ⟨s, l, .nothing hload hcomp, hok⟩)
  · exact .inr (.inr ⟨_, _, .cal hunset, ht⟩)
  · exact .inr (.inr ⟨_, _, .tfine hcal f, ht⟩)

/-- A command that leaves FAULT at NONE has written STATUS. -/
theorem exec_status_isSome {i : Instr} {s t : State} (h : exec i s = .next t)
    (hfault : t.fault = none) : t.status.isSome = true := by
  obtain ⟨-, ⟨k, rfl⟩ | rfl | ⟨u, l, -, rfl⟩⟩ := exec_ends h
  · cases hfault
  · rfl
  · rfl

/-- Settles O13: a fault keeps the run index, and a completion moves it by one. -/
theorem commandFrame : Obligations.CommandFrame := by
  intro i s t h
  obtain ⟨hrun, ⟨k, rfl⟩ | rfl | ⟨u, l, hw, rfl⟩⟩ := exec_ends h
  · simp
  · simp [hrun]
  · obtain ⟨hfault, hparams, hports, hhost, hindex⟩ := hw.frame
    simp [hfault, hrun, hparams, hports, hhost, hindex]

/-! ### The latches of a completion with OK -/

/-- Every end with OK that r answers leaves latches with the property P. -/
def OkLeaves (P : Latches → Prop) (r : Result) : Prop :=
  ∀ t, r = .next t → t.status = some .ok → P t.latch

section
variable {P : Latches → Prop} {s : State}

theorem OkLeaves.finish {l : Latches} (h : P l) : OkLeaves P (finish s l) := by
  intro t ht _
  rw [finish_next.mp ht]
  exact h

theorem OkLeaves.raise (k : FaultKind) : OkLeaves P (raise s k) := by
  intro t ht hok
  rw [raise_next.mp ht] at hok
  cases hok

theorem OkLeaves.accept {body : Result} (h : OkLeaves P body) : OkLeaves P (accept s body) :=
  fun t ht => h t (accept_next ht).2

theorem OkLeaves.requireBuilt {i : Instr} {body : Result} (h : OkLeaves P body) :
    OkLeaves P (requireBuilt i s body) := by
  intro t ht hok
  obtain ⟨-, ht⟩ | ⟨-, rfl⟩ := requireBuilt_next ht
  · exact h t ht hok
  · cases hok

theorem OkLeaves.requireLegal {legal : Bool} {body : Result} (h : OkLeaves P body) :
    OkLeaves P (requireLegal legal s body) := by
  intro t ht hok
  obtain ⟨-, ht⟩ | ⟨-, rfl⟩ := requireLegal_next ht
  · exact h t ht hok
  · cases hok

theorem OkLeaves.withCal {body : Cal → Result} (h : ∀ c, OkLeaves P (body c)) :
    OkLeaves P (withCal s body) := by
  intro t ht hok
  obtain ⟨c, -, -, ht⟩ | ⟨-, rfl⟩ := withCal_next ht
  · exact h c t ht hok
  · cases hok

theorem OkLeaves.withTfine {body : Word → Result} (h : ∀ f, OkLeaves P (body f)) :
    OkLeaves P (withTfine s body) := by
  intro t ht hok
  obtain ⟨f, -, -, ht⟩ | ⟨-, rfl⟩ := withTfine_next ht
  · exact h f t ht hok
  · cases hok

end

/-- Every end of a command with OK leaves exactly the latches of its row of R81: the checks before
the result leave no latch, and the result names its latches. -/
theorem exec_okLeaves_row (i : Instr) (s : State) : OkLeaves (writesExactly i) (exec i s) := by
  cases i with
  | encConfig => exact .accept (.requireLegal (.finish (by simp [writesExactly, Latches.bottom])))
  | decCtrlHum | decCtrlMeas | decConfig | decRaw =>
    exact .accept (.finish (by simp [writesExactly, Latches.bottom]))
  | updOsrsH | updOsrsT | updOsrsP | updMode | updTSb | updFilter | updSpi3w =>
    exact .accept (.requireLegal (.finish (by simp [writesExactly, Latches.bottom])))
  | loadCal =>
    refine .accept ?_
    split
    · exact .raise _
    · exact .finish (by simp [writesExactly, Latches.bottom])
  | compT =>
    exact .accept (.requireLegal (.withCal fun _ =>
      .finish (by simp [writesExactly, Latches.bottom])))
  | compP32 | compP64 =>
    exact .accept (.requireBuilt (.requireLegal (.withCal fun _ => .withTfine fun _ =>
      .finish (by simp [writesExactly, Latches.bottom]))))
  | compH =>
    exact .accept (.requireLegal (.withCal fun _ => .withTfine fun _ =>
      .finish (by simp [writesExactly, Latches.bottom])))
  | splitT | splitP32 | splitP64 | splitH | fltT | fltP32 | fltP64 | fltH =>
    exact .accept (.finish (by simp [writesExactly, Latches.bottom]))

/-- Settles O12: STATUS tells the three ends apart. -/
theorem latchWriteDiscipline : Obligations.LatchWriteDiscipline := by
  intro i s t h
  obtain ⟨hrun, ⟨k, rfl⟩ | rfl | ⟨u, l, hw, rfl⟩⟩ := exec_ends h
  · exact ⟨nofun, nofun, fun _ => ⟨k, rfl⟩⟩
  · exact ⟨nofun, fun _ => rfl, nofun⟩
  · obtain ⟨hfault, -⟩ := hw.frame
    exact ⟨fun hok => ⟨hfault.trans hrun, exec_okLeaves_row i s _ h hok⟩, nofun, nofun⟩

theorem packFloat_isOf (fmt : FloatFmt) (neg : Bool) (mag : Nat) :
    (packFloat fmt neg mag).isOf fmt = true := by
  cases fmt <;> rfl

theorem finishFloat_yf_isOf {s t : State} {x : Int} {n : Nat} {v : FloatVal}
    (h : finishFloat s x n = .next t) (hv : t.latch.yf = some v) :
    v.isOf s.params.floatFmt = true := by
  obtain ⟨-, rfl⟩ := finishFloat_next h
  cases hv
  exact packFloat_isOf ..

/-- YF after a completion with OK is a value of FLOAT_FMT: by the rows of R81 only a FLT_* command
leaves YF set. -/
theorem exec_ok_yf_isOf {i : Instr} {s t : State} {v : FloatVal} (h : exec i s = .next t)
    (hok : t.status = some .ok) (hv : t.latch.yf = some v) : v.isOf s.params.floatFmt = true := by
  obtain ⟨-, -, -, -, -, -, -, -, hyf⟩ := exec_okLeaves_row i s t h hok
  have hflt : i ∈ [.fltT, .fltP32, .fltP64, .fltH] := hyf.mp (by simp [hv])
  simp only [List.mem_cons, List.not_mem_nil, or_false] at hflt
  obtain rfl | rfl | rfl | rfl := hflt <;> exact finishFloat_yf_isOf h hv

end Sys2Proof.Machine
end

section
/-! PROOFS. Reset, who writes CAL and TFINE, and the invariant every step keeps (spec/10_state.md
rules R22 to R25, R30, R33, R38, spec/41_calibration.md rule R164). -/

namespace Sys2Proof.Machine

/-- Settles O5: each value is the field's in the definition of the reset state. -/
theorem resetStateValues : Obligations.ResetStateValues :=
  ⟨rfl, rfl, rfl, rfl, rfl, rfl, rfl⟩

theorem step_of_reset {s : State} {rest : List HostEvent} (hhost : s.host = .reset :: rest) :
    step s = .next (s.assertReset rest) := by
  simp [step, stepEvent, hhost]

/-- Settles O14: of the ends of a command, only a LOAD_CAL that completes with OK writes CAL. -/
theorem calWrittenOnlyByLoadCal : Obligations.CalWrittenOnlyByLoadCal := by
  refine ⟨⟨rfl, rfl⟩, fun s rest hhost => ⟨_, step_of_reset hhost, rfl, rfl⟩, fun i s t h => ?_⟩
  obtain ⟨-, ⟨k, rfl⟩ | rfl | ⟨u, l, hw, rfl⟩⟩ := exec_ends h
  · simp [State.calFlag]
  · simp [State.calFlag]
  · cases hw with
    | nothing hcal htfine => simp [State.calFlag, hcal]
    | cal hunset => simp [State.calFlag, hunset]
    | tfine hcal fine => simp [State.calFlag]

/-- Settles O15: of the ends of a command, only a COMP_T that completes with OK writes TFINE. -/
theorem tfineWrittenOnlyByCompT : Obligations.TfineWrittenOnlyByCompT := by
  refine ⟨⟨rfl, rfl⟩, fun i s t h => ?_⟩
  obtain ⟨-, ⟨k, rfl⟩ | rfl | ⟨u, l, hw, rfl⟩⟩ := exec_ends h
  · simp [State.tfineFlag]
  · simp [State.tfineFlag]
  · cases hw with
    | nothing hcal htfine => simp [State.tfineFlag, htfine]
    | cal hunset => simp [State.tfineFlag]
    | tfine hcal fine => simp [State.tfineFlag]

/-! ### What keeps the invariant -/

/-- A nibble-packed coefficient is a 12-bit number, whichever way it is widened (R100, R164). -/
theorem packed12_inRange (signExtend : Bool) (high : Byte) (nibble : BitVec 4) :
    packedInRange signExtend (packed12 signExtend high nibble) := by
  cases signExtend with
  | true =>
    have hext : (packed12 true high nibble).toInt = (high ++ nibble).toInt :=
      BitVec.toInt_signExtend_of_le (by norm_num)
    have hlow := BitVec.le_toInt (high ++ nibble)
    have hhigh := BitVec.toInt_lt (x := high ++ nibble)
    refine ⟨fun _ => ?_, nofun⟩
    rw [hext]
    norm_num at hlow hhigh
    omega
  | false =>
    have hhigh := high.isLt
    have hnibble := nibble.isLt
    have hor : (packed12 false high nibble).toNat < 2 ^ 12 := by
      refine Nat.or_lt_two_pow ?_ ?_ <;>
        simp only [BitVec.toNat_shiftLeft, BitVec.toNat_setWidth, Nat.shiftLeft_eq] <;> omega
    exact ⟨nofun, fun _ => by omega⟩

/-- The state right after a reset event meets the invariant, in every build. -/
theorem State.inv_assertReset (s : State) (rest : List HostEvent) : (s.assertReset rest).Inv where
  calFlag := rfl
  tfineFlag := rfl
  tfineAfterCal := nofun
  latchesQuiet := fun _ => rfl
  haltedQuiet := fun _ => rfl
  statusWritten := fun h => absurd rfl h
  packedRange := nofun
  yfOfFormat := nofun

/-- Settles O10: the reset state is what a reset event makes of itself. -/
theorem invAtReset : Obligations.InvAtReset :=
  State.inv_assertReset State.reset []

theorem State.Inv.sample {s : State} (h : s.Inv) (p : Ports) (rest : List HostEvent) :
    (s.sample p rest).Inv := by
  obtain ⟨hcal, htfine, hafter, hquiet, hhalted, hstatus, hpacked, hyf⟩ := h
  exact ⟨hcal, htfine, hafter, hquiet, hhalted, hstatus, hpacked, hyf⟩

theorem State.Inv.takeFault {s : State} (h : s.Inv) (k : FaultKind) : (s.takeFault k).Inv :=
  { h with
    latchesQuiet := fun _ => rfl
    haltedQuiet := fun _ => rfl
    statusWritten := nofun
    yfOfFormat := nofun }

theorem State.Inv.completeParamError {s : State} (h : s.Inv) (hrun : s.fault = none) :
    s.completeParamError.Inv :=
  { h with
    latchesQuiet := fun _ => rfl
    haltedQuiet := fun hhalted => absurd hrun hhalted
    statusWritten := nofun
    yfOfFormat := nofun }

theorem State.Inv.completeOk {s : State} (h : s.Inv) (hrun : s.fault = none) {l : Latches}
    (hyf : ∀ v, l.yf = some v → v.isOf s.params.floatFmt = true) : (s.completeOk l).Inv :=
  { h with
    latchesQuiet := fun hok => absurd rfl hok
    haltedQuiet := fun hhalted => absurd hrun hhalted
    statusWritten := nofun
    yfOfFormat := hyf }

/-- The writes of LOAD_CAL and COMP_T keep each valid flag with its register, and LOAD_CAL parses
H4 and H5 into the range of the build. -/
theorem Written.inv {i : Instr} {s u : State} (hw : Written i s u) (h : s.Inv) : u.Inv := by
  cases hw with
  | nothing => exact h
  | cal =>
    have hpacked : (s.writeCal (parseCal s.params s.ports.ib s.ports.ic)).packedRange := by
      intro c hc
      cases hc
      exact ⟨packed12_inRange .., packed12_inRange ..⟩
    exact { h with calFlag := rfl, tfineAfterCal := fun _ => rfl, packedRange := hpacked }
  | tfine hcal => exact { h with tfineFlag := rfl, tfineAfterCal := fun _ => hcal }

/-- Every command keeps the invariant. -/
theorem exec_inv {i : Instr} {s t : State} (h : s.Inv) (ht : exec i s = .next t) : t.Inv := by
  obtain ⟨hrun, ⟨k, rfl⟩ | rfl | ⟨u, l, hw, rfl⟩⟩ := exec_ends ht
  · exact h.takeFault k
  · exact h.completeParamError hrun
  · obtain ⟨hfault, hparams, -⟩ := hw.frame
    refine (hw.inv h).completeOk (hfault.trans hrun) fun v hv => ?_
    rw [hparams]
    exact exec_ok_yf_isOf ht rfl hv

/-- Settles O11: a step is a reset, a command of exec or an illegal opcode's fault, and each keeps
the invariant. -/
theorem stepKeepsInv : Obligations.StepKeepsInv := by
  intro s t h ht
  obtain ⟨rest, -, rfl⟩ | ⟨p, rest, -, hrun⟩ := stepEvent_next ht
  · exact s.inv_assertReset rest
  · obtain ⟨i, -, hexec⟩ | ⟨e, -, -, rfl⟩ := runSampled_next hrun
    · exact exec_inv (h.sample p rest) hexec
    · exact (h.sample p rest).takeFault .illegalCmd

end Sys2Proof.Machine
end

section
/-! PROOFS. The halted CERC, and runs of a command sequence (spec/10_state.md rules R28 and R36,
spec/60_exceptions.md rule R257). -/

namespace Sys2Proof.Machine

/-- A halted CERC refuses a sampled command whether its opcode decodes or not. -/
theorem runSampled_halted {s : State} {k : FaultKind} (h : s.fault = some k) :
    runSampled exec s = .fault (.halted k) := by
  unfold runSampled
  split
  · exact exec_halted h
  · exact accept_of_halted h _

/-- A presented command that leaves FAULT at NONE was a command of exec. -/
theorem exec_of_issue_next {s t : State} {p : Ports} (h : issue s p = .next t)
    (hfault : t.fault = none) : ∃ i, exec i (s.sample p []) = .next t := by
  have hrun : runSampled exec (s.sample p []) = .next t := h
  obtain ⟨i, -, hexec⟩ | ⟨e, -, -, rfl⟩ := runSampled_next hrun
  · exact ⟨i, hexec⟩
  · cases hfault

/-- The first command of a run that succeeds completes, and the rest of the run succeeds. -/
theorem runCommands_cons_success {s : State} {p : Ports} {ps : List Ports}
    (h : (runCommands s (p :: ps)).success = true) :
    ∃ t, issue s p = .next t ∧ t.fault = none ∧ (runCommands t ps).success = true ∧
      runCommands s (p :: ps) =
        { runCommands t ps with views := hostView t :: (runCommands t ps).views } := by
  rw [runCommands] at h
  split at h
  · next t ht =>
    split at h
    · next hfault => exact ⟨t, ht, hfault, h, by simp [runCommands, ht, hfault]⟩
    · cases h
  · cases h
  · cases h

/-- A halted CERC begins no run that succeeds: it accepts no first command, and the run of no
command ends halted. -/
theorem runCommands_halted {s : State} {k : FaultKind} (h : s.fault = some k) (ps : List Ports) :
    (runCommands s ps).success = false := by
  cases ps with
  | nil => simp [runCommands, h]
  | cons p ps =>
    have hissue : issue s p = .fault (.halted k) := runSampled_halted (s := s.sample p []) h
    simp [runCommands, hissue]

/-- A run that succeeds ends with FAULT NONE. -/
theorem runCommands_final_fault {s : State} {ps : List Ports}
    (h : (runCommands s ps).success = true) : (runCommands s ps).final.fault = none := by
  induction ps generalizing s with
  | nil => simpa [runCommands] using h
  | cons p ps ih =>
    obtain ⟨t, -, -, hrest, heq⟩ := runCommands_cons_success h
    rw [heq]
    exact ih hrest

/-- Settles O7: a command is refused before its opcode or its operands matter, so a halted CERC stops
a run at its first command. -/
theorem haltedAcceptsNoCommand : Obligations.HaltedAcceptsNoCommand := by
  refine ⟨fun s k hk => ⟨fun i => exec_halted hk, fun p rest hhost => ?_, runCommands_halted hk⟩,
    fun s ps => runCommands_final_fault⟩
  calc step s = runSampled exec (s.sample p rest) := step_of_command hhost
    _ = .fault (.halted k) := runSampled_halted hk

/-- Settles O49, by induction on the commands: each one that completes moves the run index by one
and shows the host one view, with a STATUS. -/
theorem runIndexCountsCommands : Obligations.RunIndexCountsCommands := by
  intro s ps h
  induction ps generalizing s with
  | nil => simp [runCommands]
  | cons p ps ih =>
    obtain ⟨t, hissue, hfault, hrest, heq⟩ := runCommands_cons_success h
    obtain ⟨i, hexec⟩ := exec_of_issue_next hissue hfault
    obtain ⟨-, -, -, hindex⟩ := commandFrame i _ _ hexec
    obtain ⟨ihIndex, ihLength, ihViews⟩ := ih t hrest
    have hnext : t.index = s.index + 1 := by simpa [hfault] using hindex
    rw [heq]
    refine ⟨?_, by simp [ihLength], fun v hv => ?_⟩
    · simp only [ihIndex, hnext, List.length_cons]
      omega
    · obtain rfl | hv := List.mem_cons.mp hv
      · exact ⟨hfault, exec_status_isSome hexec hfault⟩
      · exact ihViews v hv

end Sys2Proof.Machine
end

section
/-! PROOFS. Reads of the sensor's registers: bursts, and what a measurement does with one
(spec/20_memory.md rules R56 and R61, spec/30_encoding.md rule R85). -/

namespace Sys2Proof.Machine

open Sys2Proof.Claims

/-! ### Bursts -/

theorem readFrom_succ_eq_some_iff {img : Image} {a : RegAddr} {n : Nat} {bytes : List Byte} :
    readFrom img a (n + 1) = some bytes ↔
      ∃ b rest, bytes = b :: rest ∧ readReg img a = some b ∧
        readFrom img (a + 1) n = some rest := by
  rw [readFrom]
  cases readReg img a with
  | none => simp
  | some b => cases readFrom img (a + 1) n <;> simp [eq_comm]

/-- Reading on from a, register by register. The addresses may wrap here: only `burst` keeps them
inside the 8-bit space. -/
theorem readFrom_eq_some_iff {img : Image} {a : RegAddr} {n : Nat} {bytes : List Byte} :
    readFrom img a n = some bytes ↔
      bytes.length = n ∧ ∀ k < n, readReg img (a + BitVec.ofNat 8 k) = bytes[k]? := by
  induction n generalizing a bytes with
  | zero => simp [eq_comm (a := ([] : List Byte))]
  | succ n ih =>
    have hshift (k : Nat) : a + BitVec.ofNat 8 (k + 1) = a + 1 + BitVec.ofNat 8 k := by
      rw [BitVec.ofNat_add]; ac_rfl
    cases bytes with
    | nil => simp [readFrom_succ_eq_some_iff]
    | cons b rest =>
      simp only [readFrom_succ_eq_some_iff, Nat.forall_lt_succ_left, hshift, ih]
      simp [and_left_comm]

/-- Inside the 8-bit space the register k after a is the one whose address is a + k as a number. -/
theorem toNat_eq_add_iff {a b : RegAddr} {n k : Nat} (hrange : a.toNat + n ≤ 256) (hk : k < n) :
    b.toNat = a.toNat + k ↔ b = a + BitVec.ofNat 8 k := by
  bv_omega

/-- Settles O51: the addresses of a burst do not wrap, so reading on register by register reads the
registers a + k as numbers. -/
theorem burstReadsConsecutiveRegisters : Obligations.BurstReadsConsecutiveRegisters := by
  intro img a n bytes
  by_cases hrange : a.toNat + n ≤ 256
  · have haddr (k : Nat) (hk : k < n) :
        (∀ b : RegAddr, b.toNat = a.toNat + k → readReg img b = bytes[k]?) ↔
          readReg img (a + BitVec.ofNat 8 k) = bytes[k]? := by
      simp only [toNat_eq_add_iff hrange hk, forall_eq]
    calc burst img a n = some bytes
      _ ↔ readFrom img a n = some bytes := by rw [burst, if_pos hrange]
      _ ↔ bytes.length = n ∧ ∀ k < n, readReg img (a + BitVec.ofNat 8 k) = bytes[k]? :=
        readFrom_eq_some_iff
      _ ↔ _ := by simp +contextual only [hrange, haddr, true_and]
  · simp [burst, hrange]

/-- A port is filled exactly when the registers of its burst hold its bytes. -/
theorem burstPort_eq_some_iff_registersHold {img : Image} {a : RegAddr} {n : Nat}
    {v : Vector Byte n} (hrange : a.toNat + n ≤ 256) :
    burstPort img a n = some v ↔ registersHold img a.toNat v := by
  rw [burstPort_eq_some, burstReadsConsecutiveRegisters img a n]
  simp +contextual [hrange, registersHold]

/-! ### Measurements -/

theorem measureFrom_of_registersHold {img : Image} {adc : Vector Byte 8}
    (hadc : registersHold img 0xF7 adc) (pressure : Instr) (operands : Ports) :
    measureFrom pressure operands img = measure pressure operands adc := by
  have hport : burstPort img adcReadout 8 = some adc :=
    (burstPort_eq_some_iff_registersHold (by decide)).mpr hadc
  simp [measureFrom, hport]

theorem measureFrom_of_no_registersHold {img : Image}
    (hadc : ¬ ∃ adc : Vector Byte 8, registersHold img 0xF7 adc) (pressure : Instr)
    (operands : Ports) : measureFrom pressure operands img = [] := by
  cases hport : burstPort img adcReadout 8 with
  | none => simp [measureFrom, hport]
  | some adc =>
    exact absurd ⟨adc, (burstPort_eq_some_iff_registersHold (by decide)).mp hport⟩ hadc

/-- A presented DEC_RAW is built in whatever the build, so a running CERC completes it. -/
theorem step_present_decRaw {s : State} (hrun : s.fault = none) {operands : Ports}
    {rest : List HostEvent} (hhost : s.host = present .decRaw operands :: rest) :
    step s = .next ((s.sample { operands with cmd := opcode .decRaw } rest).completeOk
      { Latches.bottom with
        y0 := some (adc20 operands.ib[0] operands.ib[1] operands.ib[2])
        y1 := some (adc20 operands.ib[3] operands.ib[4] operands.ib[5])
        y2 := some (adc16 operands.ib[6] operands.ib[7]) }) := by
  have hdec : decodeCmd s.params.press (opcode .decRaw) = .ok .decRaw :=
    Laws.Encoding.decRaw.2 s.params.press
  calc step s = runSampled exec (s.sample { operands with cmd := opcode .decRaw } rest) :=
        step_of_command hhost
    _ = execDecRaw (s.sample { operands with cmd := opcode .decRaw } rest) :=
        runSampled_of_decodeCmd_ok (meaning := exec) (i := .decRaw) hdec
    _ = _ := accept_of_running hrun _

/-- Settles O53: the burst fills the port exactly when the eight registers hold its bytes, and
DEC_RAW then leaves the samples that the host's next commands carry. -/
theorem measurementReadsAdcRegisters : Obligations.MeasurementReadsAdcRegisters := by
  intro pressure operands img
  refine ⟨fun adc s hadc hrun => ?_,
    fun hnone => measureFrom_of_no_registersHold hnone pressure operands⟩
  rw [measureFrom_of_registersHold hadc]
  have hstep := step_present_decRaw (s := { s with host := measure pressure operands adc }) hrun rfl
  simp only [withBurst_getElem, Nat.reduceLT] at hstep
  exact ⟨_, _, _, _, hstep, rfl, rfl, adc20_toNat .., adc20_toNat .., adc16_toNat .., rfl⟩

end Sys2Proof.Machine
end

section
/-! PROOFS. Commands queued and commands issued one at a time (spec/20_memory.md rule R64,
spec/60_exceptions.md rule R257). -/

namespace Sys2Proof.Machine

/-- A sampled command does not look at what the host does next, whether its opcode decodes or not. -/
theorem runSampled_host (s : State) (h : List HostEvent) :
    runSampled exec { s with host := h } =
      mapNext (fun t => { t with host := h }) (runSampled exec s) := by
  unfold runSampled
  cases decodeCmd s.params.press s.ports.cmd with
  | ok i => exact exec_host i s h
  | error e =>
    simp only [illegalCommand, accept]
    cases s.fault <;> rfl

/-- The head of a queue steps as the command does when it is issued alone. -/
theorem step_queued_of_issue {s t : State} {p : Ports} (hissue : issue s p = .next t)
    (rest : List HostEvent) :
    step { s with host := .command p :: rest } = .next { t with host := rest } := by
  have hrun : runSampled exec (s.sample p []) = .next t := hissue
  calc step { s with host := .command p :: rest }
      = runSampled exec { s.sample p [] with host := rest } := step_of_command rfl
    _ = mapNext (fun t => { t with host := rest }) (runSampled exec (s.sample p [])) :=
        runSampled_host _ _
    _ = .next { t with host := rest } := by rw [hrun]; rfl

/-- One more step of a run whose first step answers a next state. -/
theorem core_run_succ {s t : State} (h : step s = .next t) (k : Nat) :
    Host.Core.run core (k + 1) s = Host.Core.run core k t := by
  have hcore : core.step s = .next t := h
  simp [Host.Core.run, hcore]

/-- Settles O50, by induction on the commands: the head of the queue steps as it does issued alone
and leaves the tail queued. -/
theorem queuedRunMatchesIssuedRun : Obligations.QueuedRunMatchesIssuedRun := by
  intro s ps h
  induction ps generalizing s with
  | nil => rfl
  | cons p ps ih =>
    obtain ⟨t, hissue, -, hrest, heq⟩ := runCommands_cons_success h
    calc Host.Core.run core (ps.length + 1) { s with host := .command p :: ps.map .command }
        = Host.Core.run core ps.length { t with host := ps.map .command } :=
          core_run_succ (step_queued_of_issue hissue _) _
      _ = .next { (runCommands t ps).final with host := [] } := ih t hrest
      _ = .next { (runCommands s (p :: ps)).final with host := [] } := by rw [heq]

end Sys2Proof.Machine
end

section
/-! PROOFS. The encoding of a command decodes to it (spec/30_encoding.md rules R81 to R84). -/

namespace Sys2Proof.Machine

open Sys2Proof.Laws.Encoding

/-- The encoding laws of the 25 commands, in the order of the constructors. -/
theorem encoding_statement (i : Instr) : Statement i := by
  cases i
  exacts [encConfig, decCtrlHum, decCtrlMeas, decConfig, decRaw,
    updOsrsH, updOsrsT, updOsrsP, updMode, updTSb, updFilter, updSpi3w,
    loadCal, compT, compP32, compP64, compH,
    splitT, splitP32, splitP64, splitH, fltT, fltP32, fltP64, fltH]

/-- The opcode of a command that is built in decodes to the command. -/
theorem decodeCmd_opcode {v : PressVariants} {i : Instr} (hbuilt : i.wellFormed v = true) :
    decodeCmd v (opcode i) = .ok i := by
  obtain ⟨-, hdec⟩ := encoding_statement i
  rw [hdec, if_pos hbuilt]

/-- Settles O1: the encoding is the opcode alone, and the stream decoder takes that byte and leaves
what follows it. -/
theorem decodeOfEncode : Obligations.DecodeOfEncode := by
  intro v i rest hbuilt
  exact decode_cons_eq_ok_iff.mpr ⟨decodeCmd_opcode hbuilt, rfl⟩

/-- Settles O2: each of the eight bytes is the opcode of its command, which the named build has. -/
theorem opcodeWordsDecode : Obligations.OpcodeWordsDecode :=
  ⟨decodeCmd_opcode (i := .encConfig) rfl, decodeCmd_opcode (i := .decRaw) rfl,
    decodeCmd_opcode (i := .updSpi3w) rfl, decodeCmd_opcode (i := .loadCal) rfl,
    decodeCmd_opcode (i := .compP64) rfl, decodeCmd_opcode (i := .compP32) rfl,
    decodeCmd_opcode (i := .splitH) rfl, decodeCmd_opcode (i := .fltT) rfl⟩

end Sys2Proof.Machine
end

section
/-! PROOFS. How the codec commands end (spec/40_codec.md rules R120 to R125): each completes, and by
its ports alone; the decoders' latches on numbers. -/

namespace Sys2Proof.Machine

open Sys2Proof.Claims

/-! ### Completion by the ports alone -/

/-- The results r in s and r' in s' complete with the same STATUS and latches, and change nothing
else but the run index. -/
def SameCompletion (s s' : State) (r r' : Result) : Prop :=
  ∃ (st : Status) (l : Latches),
    r = .next { s with status := some st, latch := l, index := s.index + 1 } ∧
    r' = .next { s' with status := some st, latch := l, index := s'.index + 1 }

section
variable {s s' : State} {r r' : Result}

theorem SameCompletion.finish {l : Latches} :
    SameCompletion s s' (finish s l) (finish s' l) :=
  ⟨.ok, l, rfl, rfl⟩

theorem SameCompletion.requireLegal {legal : Bool} (h : SameCompletion s s' r r') :
    SameCompletion s s' (requireLegal legal s r) (requireLegal legal s' r') := by
  cases legal with
  | true => exact h
  | false => exact ⟨.paramError, Latches.bottom, rfl, rfl⟩

theorem SameCompletion.accept (hrun : s.fault = none) (hrun' : s'.fault = none)
    (h : SameCompletion s s' r r') : SameCompletion s s' (accept s r) (accept s' r') := by
  rwa [accept_of_running hrun, accept_of_running hrun']

end

theorem codec_sameCompletion {i : Instr} {s s' : State} (hcodec : isCodec i)
    (hrun : s.fault = none) (hrun' : s'.fault = none) (hports : s.ports = s'.ports) :
    SameCompletion s s' (exec i s) (exec i s') := by
  obtain ⟨⟩ := s'
  cases hports
  cases i with
  | encConfig | updOsrsH | updOsrsT | updOsrsP | updMode | updTSb | updFilter | updSpi3w =>
    exact .accept hrun hrun' (.requireLegal .finish)
  | decCtrlHum | decCtrlMeas | decConfig | decRaw => exact .accept hrun hrun' .finish
  | _ => simp [isCodec] at hcodec

/-- Settles O16: the only check of a codec command's operands, and every latch it leaves, reads the
ports. -/
theorem codecIsStateless : Obligations.CodecIsStateless := by
  intro i s s' hcodec hrun hrun' hports
  obtain ⟨st, l, h, h'⟩ := codec_sameCompletion hcodec hrun hrun' hports
  exact ⟨_, _, h, h', rfl, rfl, rfl⟩

/-! ### The decoders -/

theorem osrsRecognised_fieldWord_iff (v : Byte) (hi lo : Nat) :
    osrsRecognised (fieldWord v hi lo) = true ↔ bitsOf v hi lo ≤ 5 := by
  simp [osrsRecognised, BitVec.le_def, fieldWord_toNat, bitsOf]

theorem filterRecognised_fieldWord_iff (v : Byte) (hi lo : Nat) :
    filterRecognised (fieldWord v hi lo) = true ↔ bitsOf v hi lo ≤ 4 := by
  simp [filterRecognised, BitVec.le_def, fieldWord_toNat, bitsOf]

theorem yvBits_toNat {b2 b1 b0 : Bool} {p2 p1 p0 : Prop} [Decidable p2] [Decidable p1]
    [Decidable p0] (h2 : b2 = true ↔ p2) (h1 : b1 = true ↔ p1) (h0 : b0 = true ↔ p0) :
    (yvBits b2 b1 b0).toNat = yvNat p2 p1 p0 := by
  simp only [yvNat, ← h2, ← h1, ← h0]
  cases b2 <;> cases b1 <;> cases b0 <;> rfl

/-- Settles O20: an unsigned field is a number, and its recognised bit compares it (R95). -/
theorem decCtrlHumResult : Obligations.DecCtrlHumResult :=
  ⟨rfl, fun _ hrun => ⟨_, _, accept_of_running hrun _, fieldWord_toNat ..,
    yvBits_toNat (by simp) (by simp) (osrsRecognised_fieldWord_iff ..)⟩⟩

/-- Settles O21: the two oversampling codes are the recognised ones, and every mode is (R95). -/
theorem decCtrlMeasResult : Obligations.DecCtrlMeasResult :=
  ⟨rfl, fun _ hrun => ⟨_, _, _, _, accept_of_running hrun _, fieldWord_toNat ..,
    fieldWord_toNat .., fieldWord_toNat .., yvBits_toNat (by simp)
      (osrsRecognised_fieldWord_iff ..) (osrsRecognised_fieldWord_iff ..)⟩⟩

/-- Settles O22: only the filter code can be unrecognised (R95). -/
theorem decConfigResult : Obligations.DecConfigResult :=
  ⟨rfl, fun _ hrun => ⟨_, _, _, _, accept_of_running hrun _, fieldWord_toNat ..,
    fieldWord_toNat .., fieldWord_toNat .., yvBits_toNat (by simp)
      (filterRecognised_fieldWord_iff ..) (by simp)⟩⟩

theorem adc20_le (msb lsb xlsb : Byte) : (adc20 msb lsb xlsb).toNat ≤ 0xFFFFF := by
  rw [adc20_toNat]
  omega

theorem adc16_le (msb lsb : Byte) : (adc16 msb lsb).toNat ≤ 0xFFFF := by
  rw [adc16_toNat]
  omega

/-- Settles O23: a readout is its bytes, most significant first, so it is in range by its width. -/
theorem decRawResult : Obligations.DecRawResult :=
  ⟨rfl, fun _ hrun => ⟨_, _, _, accept_of_running hrun _, adc20_toNat .., adc20_toNat ..,
    adc16_toNat .., adc20_le .., adc20_le .., adc16_le ..⟩⟩

end Sys2Proof.Machine
end

section
/-! PROOFS. ENC_CONFIG, and the configuration codec there and back (spec/40_codec.md rules R121,
R134 and R135). The round trips follow from the results of the four commands alone. -/

namespace Sys2Proof.Machine

open Sys2Proof.Claims

/-! ### The encoder -/

theorem icfgLegal_iff (c : Icfg) : icfgLegal c = true ↔ icfgInSets c := by
  simp [icfgLegal, icfgInSets, osrsSet, modeSet, osrsLegal_iff, modeLegal_iff, tSbLegal_iff,
    filterLegal_iff, spi3wLegal_iff, and_assoc]

theorem exec_encConfig_of_running {s : State} (hrun : s.fault = none) :
    exec .encConfig s = requireLegal (icfgLegal s.ports.icfg) s (finish s { Latches.bottom with
      yb0 := some (encCtrlHum s.ports.icfg)
      yb1 := some (encCtrlMeas s.ports.icfg)
      yb2 := some (encConfigByte s.ports.icfg) }) :=
  accept_of_running hrun _

/-- The fields of ctrl_meas and of config stand side by side: 3, 3 and 2 bits (R87, R88). -/
theorem threeFields_toNat {a b c : Byte} (ha : a.toNat ≤ 7) (hb : b.toNat ≤ 7)
    (hc : c.toNat ≤ 3) :
    ((a <<< 5) ||| (b <<< 2) ||| c).toNat = a.toNat * 32 + b.toNat * 4 + c.toNat := by
  have hshift5 : (a <<< 5).toNat = a.toNat <<< 5 := by
    simp only [BitVec.toNat_shiftLeft, Nat.shiftLeft_eq]
    omega
  have hshift2 : (b <<< 2).toNat = b.toNat <<< 2 := by
    simp only [BitVec.toNat_shiftLeft, Nat.shiftLeft_eq]
    omega
  have hlow : b.toNat <<< 2 ||| c.toNat = b.toNat * 4 + c.toNat := by
    rw [← Nat.shiftLeft_add_eq_or_of_lt (by omega), Nat.shiftLeft_eq]
  rw [BitVec.or_assoc, BitVec.toNat_or, BitVec.toNat_or, hshift5, hshift2, hlow,
    ← Nat.shiftLeft_add_eq_or_of_lt (by omega), Nat.shiftLeft_eq]
  omega

/-- Settles O19: codes in their legal sets are narrower than their fields, so the fields of a byte
do not overlap. -/
theorem encConfigResult : Obligations.EncConfigResult := by
  refine ⟨rfl, fun s hrun => ?_⟩
  rw [exec_encConfig_of_running hrun]
  refine ⟨fun hlegal => ?_, fun hillegal => ?_⟩
  · rw [(icfgLegal_iff _).mpr hlegal]
    obtain ⟨hosrsT, hosrsP, -, hmode, htSb, hfilter, hspi3w⟩ := hlegal
    unfold osrsSet at hosrsT hosrsP
    unfold modeSet at hmode
    exact ⟨_, _, _, rfl, rfl, threeFields_toNat (by omega) (by omega) (by omega),
      threeFields_toNat htSb (by omega) (by omega)⟩
  · rw [← icfgLegal_iff, Bool.not_eq_true] at hillegal
    rw [hillegal]
    rfl

/-! ### Fields and codes on numbers -/

theorem eq_ofNat_of_toNat_eq {w n : Nat} {x : BitVec w} (h : x.toNat = n) :
    x = BitVec.ofNat w n := by
  simp [← h]

/-- A code whose zero extension a latch holds is the number in the latch. -/
theorem code_toNat_of_latch {code : Byte} {y : Word} {n : Nat}
    (hlatch : some y = some (code.zeroExtend 32)) (hy : y.toNat = n) : code.toNat = n := by
  rw [← hy, Option.some.inj hlatch, BitVec.toNat_setWidth_of_le (by norm_num)]

theorem bitsOf_two_zero (v : Byte) : bitsOf v 2 0 = v.toNat % 8 := by
  simp [bitsOf]

theorem bitsOf_le (v : Byte) (hi lo : Nat) : bitsOf v hi lo ≤ 2 ^ (hi - lo + 1) - 1 :=
  Nat.le_sub_one_of_lt (Nat.mod_lt _ (Nat.two_pow_pos _))

/-- A byte of three fields side by side, read back field by field. -/
theorem bitsOf_threeFields {v : Byte} {a b c : Nat} (hv : v.toNat = a * 32 + b * 4 + c)
    (hb : b ≤ 7) (hc : c ≤ 3) :
    bitsOf v 7 5 = a ∧ bitsOf v 4 2 = b ∧ bitsOf v 1 0 = c ∧ bitsOf v 0 0 = c % 2 := by
  have hlt := v.isLt
  simp only [bitsOf]
  omega

theorem toNat_eq_threeFields (v : Byte) :
    v.toNat = bitsOf v 7 5 * 32 + bitsOf v 4 2 * 4 + bitsOf v 1 0 := by
  have hlt := v.isLt
  simp only [bitsOf]
  omega

theorem yvNat_eq_one_iff (p : Prop) [Decidable p] : yvNat False False p = 1 ↔ p := by
  simp [yvNat]

theorem yvNat_eq_seven_iff (p q : Prop) [Decidable p] [Decidable q] :
    yvNat True p q = 7 ↔ p ∧ q := by
  by_cases hp : p <;> by_cases hq : q <;> simp [yvNat, hp, hq]

/-! ### The decoders on recognised codes -/

section
variable {s : State} (hrun : s.fault = none) {n0 n1 n2 : Nat}
include hrun

theorem exec_decCtrlHum_of_bitsOf (h0 : bitsOf s.ports.ir 2 0 = n0) (hosrs : n0 ≤ 5) :
    exec .decCtrlHum s = .next (okEnd s { Latches.bottom with
      y0 := some (BitVec.ofNat 32 n0), yv := some 0b001#3 }) := by
  obtain ⟨y0, yv, hexec, hy0, hyv⟩ := decCtrlHumResult.2 s hrun
  rw [h0] at hy0 hyv
  have hyv1 : yv.toNat = 1 := hyv.trans ((yvNat_eq_one_iff _).mpr hosrs)
  rw [hexec, eq_ofNat_of_toNat_eq hy0, eq_ofNat_of_toNat_eq hyv1]

theorem exec_decCtrlMeas_of_bitsOf (h0 : bitsOf s.ports.ir 7 5 = n0)
    (h1 : bitsOf s.ports.ir 4 2 = n1) (h2 : bitsOf s.ports.ir 1 0 = n2) (hosrsT : n0 ≤ 5)
    (hosrsP : n1 ≤ 5) :
    exec .decCtrlMeas s = .next (okEnd s { Latches.bottom with
      y0 := some (BitVec.ofNat 32 n0), y1 := some (BitVec.ofNat 32 n1),
      y2 := some (BitVec.ofNat 32 n2), yv := some 0b111#3 }) := by
  obtain ⟨y0, y1, y2, yv, hexec, hy0, hy1, hy2, hyv⟩ := decCtrlMeasResult.2 s hrun
  rw [h0, h1] at hyv
  have hyv7 : yv.toNat = 7 := hyv.trans ((yvNat_eq_seven_iff _ _).mpr ⟨hosrsP, hosrsT⟩)
  rw [hexec, eq_ofNat_of_toNat_eq (hy0.trans h0), eq_ofNat_of_toNat_eq (hy1.trans h1),
    eq_ofNat_of_toNat_eq (hy2.trans h2), eq_ofNat_of_toNat_eq hyv7]

theorem exec_decConfig_of_bitsOf (h0 : bitsOf s.ports.ir 7 5 = n0)
    (h1 : bitsOf s.ports.ir 4 2 = n1) (h2 : bitsOf s.ports.ir 0 0 = n2) (hfilter : n1 ≤ 4) :
    exec .decConfig s = .next (okEnd s { Latches.bottom with
      y0 := some (BitVec.ofNat 32 n0), y1 := some (BitVec.ofNat 32 n1),
      y2 := some (BitVec.ofNat 32 n2), yv := some 0b111#3 }) := by
  obtain ⟨y0, y1, y2, yv, hexec, hy0, hy1, hy2, hyv⟩ := decConfigResult.2 s hrun
  rw [h1] at hyv
  have hyv7 : yv.toNat = 7 := hyv.trans ((yvNat_eq_seven_iff _ _).mpr ⟨hfilter, trivial⟩)
  rw [hexec, eq_ofNat_of_toNat_eq (hy0.trans h0), eq_ofNat_of_toNat_eq (hy1.trans h1),
    eq_ofNat_of_toNat_eq (hy2.trans h2), eq_ofNat_of_toNat_eq hyv7]

end

/-- Settles O25: every field of an encoded byte is read back as its code, and the encode-side legal
sets lie within the recognised codes. -/
theorem encodeThenDecodeRegisters : Obligations.EncodeThenDecodeRegisters := by
  intro s t s1 s2 s3 hlegal henc hrun1 hrun2 hrun3 hyb0 hyb1 hyb2 c
  obtain ⟨hrun, -⟩ := exec_next henc
  obtain ⟨hum, meas, cfg, henc', hhum, hmeas, hcfg⟩ := (encConfigResult.2 s hrun).1 hlegal
  cases henc.symm.trans henc'
  cases hyb0; cases hyb1; cases hyb2
  obtain ⟨hosrsT, hosrsP, hosrsH, hmode, htSb, hfilter, hspi3w⟩ := hlegal
  unfold osrsSet at hosrsT hosrsP hosrsH
  unfold modeSet at hmode
  have hbitsH : bitsOf s1.ports.ir 2 0 = s.ports.icfg.osrsH.toNat := by
    rw [bitsOf_two_zero, hhum]
    omega
  obtain ⟨hbitsT, hbitsP, hbitsMode, -⟩ := bitsOf_threeFields hmeas (by omega) (by omega)
  obtain ⟨hbitsTSb, hbitsFilter, -, hbitsSpi3w⟩ := bitsOf_threeFields hcfg (by omega) (by omega)
  rw [Nat.mod_eq_of_lt (by omega)] at hbitsSpi3w
  exact ⟨exec_decCtrlHum_of_bitsOf hrun1 hbitsH hosrsH,
    exec_decCtrlMeas_of_bitsOf hrun2 hbitsT hbitsP hbitsMode hosrsT hosrsP,
    exec_decConfig_of_bitsOf hrun3 hbitsTSb hbitsFilter hbitsSpi3w hfilter⟩

/-! ### The encoder on decoded codes

Codes that the latches of a decoder hold are the fields of IR, and YV says which are recognised. -/

section
variable {s t : State} {n0 n1 n2 : Byte}

theorem decCtrlHum_codes (h : exec .decCtrlHum s = .next t)
    (h0 : t.latch.y0 = some (n0.zeroExtend 32)) :
    n0.toNat = bitsOf s.ports.ir 2 0 ∧ (t.latch.yv = some 0b001#3 ↔ n0.toNat ≤ 5) := by
  obtain ⟨hrun, -⟩ := exec_next h
  obtain ⟨y0, yv, hexec, hy0, hyv⟩ := decCtrlHumResult.2 s hrun
  cases h.symm.trans hexec
  have hn0 := code_toNat_of_latch h0 hy0
  refine ⟨hn0, ?_⟩
  rw [hn0, ← yvNat_eq_one_iff (_ ≤ _), ← hyv]
  exact Option.some_inj.trans BitVec.toNat_inj.symm

theorem decCtrlMeas_codes (h : exec .decCtrlMeas s = .next t)
    (h0 : t.latch.y0 = some (n0.zeroExtend 32)) (h1 : t.latch.y1 = some (n1.zeroExtend 32))
    (h2 : t.latch.y2 = some (n2.zeroExtend 32)) :
    n0.toNat = bitsOf s.ports.ir 7 5 ∧ n1.toNat = bitsOf s.ports.ir 4 2 ∧
      n2.toNat = bitsOf s.ports.ir 1 0 ∧
      (t.latch.yv = some 0b111#3 ↔ n1.toNat ≤ 5 ∧ n0.toNat ≤ 5) := by
  obtain ⟨hrun, -⟩ := exec_next h
  obtain ⟨y0, y1, y2, yv, hexec, hy0, hy1, hy2, hyv⟩ := decCtrlMeasResult.2 s hrun
  cases h.symm.trans hexec
  have hn0 := code_toNat_of_latch h0 hy0
  have hn1 := code_toNat_of_latch h1 hy1
  have hn2 := code_toNat_of_latch h2 hy2
  refine ⟨hn0, hn1, hn2, ?_⟩
  rw [hn0, hn1, ← yvNat_eq_seven_iff, ← hyv]
  exact Option.some_inj.trans BitVec.toNat_inj.symm

theorem decConfig_codes (h : exec .decConfig s = .next t)
    (h0 : t.latch.y0 = some (n0.zeroExtend 32)) (h1 : t.latch.y1 = some (n1.zeroExtend 32))
    (h2 : t.latch.y2 = some (n2.zeroExtend 32)) :
    n0.toNat = bitsOf s.ports.ir 7 5 ∧ n1.toNat = bitsOf s.ports.ir 4 2 ∧
      n2.toNat = bitsOf s.ports.ir 0 0 ∧ (t.latch.yv = some 0b111#3 ↔ n1.toNat ≤ 4) := by
  obtain ⟨hrun, -⟩ := exec_next h
  obtain ⟨y0, y1, y2, yv, hexec, hy0, hy1, hy2, hyv⟩ := decConfigResult.2 s hrun
  cases h.symm.trans hexec
  have hn0 := code_toNat_of_latch h0 hy0
  have hn1 := code_toNat_of_latch h1 hy1
  have hn2 := code_toNat_of_latch h2 hy2
  refine ⟨hn0, hn1, hn2, ?_⟩
  rw [hn1, ← and_true (_ ≤ 4), ← yvNat_eq_seven_iff, ← hyv]
  exact Option.some_inj.trans BitVec.toNat_inj.symm

end

/-- Codes as wide as their fields: what the encoder still refuses are the codes the decoders do not
recognise, and the mode 2 (R94, R95). -/
theorem icfgInSets_iff_recognised {c : Icfg} (hmode : c.mode.toNat ≤ 3) (htSb : c.tSb.toNat ≤ 7)
    (hspi3w : c.spi3w.toNat ≤ 1) :
    icfgInSets c ↔ c.osrsH.toNat ≤ 5 ∧ (c.osrsP.toNat ≤ 5 ∧ c.osrsT.toNat ≤ 5) ∧
      c.filter.toNat ≤ 4 ∧ c.mode.toNat ≠ 2 := by
  simp only [icfgInSets, osrsSet, modeSet]
  omega

theorem some_zeroExtend_ne_two_iff (mode : Byte) :
    some (mode.zeroExtend 32) ≠ some 2#32 ↔ mode.toNat ≠ 2 := by
  rw [ne_eq, Option.some_inj, ← BitVec.toNat_inj, BitVec.toNat_setWidth_of_le (by norm_num)]
  rfl

theorem and_low3_toNat (v : Byte) : (v &&& 0b00000111#8).toNat = bitsOf v 2 0 := by
  rw [bitsOf_two_zero, BitVec.toNat_and]
  exact Nat.and_two_pow_sub_one_eq_mod v.toNat 3

/-- Clearing bit 1 of config keeps its three fields (R88). -/
theorem and_clear_bit1_toNat (v : Byte) :
    (v &&& 0b11111101#8).toNat = bitsOf v 7 5 * 32 + bitsOf v 4 2 * 4 + bitsOf v 0 0 := by
  unfold bitsOf
  revert v
  decide

/-- Settles O26: the decoders hand each code over as the bits of its field, so ENC_CONFIG finds the
codes in their legal sets exactly when they are recognised and the mode is not 2. -/
theorem decodeThenEncodeRegisters : Obligations.DecodeThenEncodeRegisters := by
  intro s s1 s2 s3 t1 t2 t3 hrun hdec1 hdec2 hdec3 c hosrsH hosrsT hosrsP hmode htSb hfilter hspi3w
    good
  obtain ⟨hbitsH, hyvHum⟩ := decCtrlHum_codes hdec1 hosrsH
  obtain ⟨hbitsT, hbitsP, hbitsMode, hyvMeas⟩ := decCtrlMeas_codes hdec2 hosrsT hosrsP hmode
  obtain ⟨hbitsTSb, hbitsFilter, hbitsSpi3w, hyvConfig⟩ :=
    decConfig_codes hdec3 htSb hfilter hspi3w
  have hgood : good ↔ icfgInSets c := by
    rw [icfgInSets_iff_recognised (hbitsMode ▸ bitsOf_le ..) (hbitsTSb ▸ bitsOf_le ..)
      (hbitsSpi3w ▸ bitsOf_le ..), ← hyvHum, ← hyvMeas, ← hyvConfig,
      ← some_zeroExtend_ne_two_iff, ← hmode]
  obtain ⟨hlegal, hillegal⟩ := encConfigResult.2 s hrun
  refine ⟨fun hg => ?_, fun hg => hillegal (hgood.not.mp hg)⟩
  obtain ⟨hum, meas, cfg, hexec, hhum, hmeas, hcfg⟩ := hlegal (hgood.mp hg)
  have hhumEq : hum = s1.ports.ir &&& 0b00000111#8 :=
    BitVec.eq_of_toNat_eq ((hhum.trans hbitsH).trans (and_low3_toNat _).symm)
  have hmeasEq : meas = s2.ports.ir := by
    rw [hbitsT, hbitsP, hbitsMode, ← toNat_eq_threeFields] at hmeas
    exact BitVec.eq_of_toNat_eq hmeas
  have hcfgEq : cfg = s3.ports.ir &&& 0b11111101#8 := by
    rw [hbitsTSb, hbitsFilter, hbitsSpi3w, ← and_clear_bit1_toNat] at hcfg
    exact BitVec.eq_of_toNat_eq hcfg
  rw [hexec, hhumEq, hmeasEq, hcfgEq]

end Sys2Proof.Machine
end

section
/-! PROOFS. The seven field updates (spec/30_encoding.md rule R96, spec/40_codec.md rules R126 to
R133, R136 and R137): the field's bits become the code's, every other bit stays. -/

namespace Sys2Proof.Machine

open Sys2Proof.Claims

/-! ### How an update ends -/

/-- Every update is the shared one, on its own field and with its own legal set (R126). -/
theorem exec_eq_updateField {i : Instr} {hi lo : Nat} {legal : Nat → Prop}
    (hupd : Updates i hi lo legal) :
    ∃ admits : Byte → Bool, (∀ code, admits code = true ↔ legal code.toNat) ∧
      ∀ s, exec i s = updateField hi lo admits s := by
  cases hupd with
  | osrsH | osrsT | osrsP => exact ⟨_, osrsLegal_iff, fun _ => rfl⟩
  | mode => exact ⟨_, modeLegal_iff, fun _ => rfl⟩
  | tSb => exact ⟨_, tSbLegal_iff, fun _ => rfl⟩
  | filter => exact ⟨_, filterLegal_iff, fun _ => rfl⟩
  | spi3w => exact ⟨_, spi3wLegal_iff, fun _ => rfl⟩

section
variable {i : Instr} {hi lo : Nat} {legal : Nat → Prop} (hupd : Updates i hi lo legal) {s t : State}
include hupd

theorem exec_update_of_legal (hrun : s.fault = none) (hlegal : legal s.ports.iv.toNat) :
    exec i s = .next (okEnd s { Latches.bottom with
      yb0 := some (replaceField hi lo s.ports.ir s.ports.iv)
      yw := some (writeNeeded hi lo s.ports.ir s.ports.iv) }) := by
  obtain ⟨admits, hadmits, hexec⟩ := exec_eq_updateField hupd
  rw [hexec, updateField, accept_of_running hrun, (hadmits _).mpr hlegal]
  rfl

theorem exec_update_of_not_legal (hrun : s.fault = none) (hillegal : ¬ legal s.ports.iv.toNat) :
    exec i s = .next (paramErrorEnd s) := by
  obtain ⟨admits, hadmits, hexec⟩ := exec_eq_updateField hupd
  rw [← hadmits, Bool.not_eq_true] at hillegal
  rw [hexec, updateField, accept_of_running hrun, hillegal]
  rfl

/-- An update ends with a legal code's byte in YB0, or it was a parameter error. -/
theorem exec_update_next (h : exec i s = .next t) :
    (legal s.ports.iv.toNat ∧
      t.latch.yb0 = some (replaceField hi lo s.ports.ir s.ports.iv)) ∨ t = paramErrorEnd s := by
  obtain ⟨hrun, -⟩ := exec_next h
  by_cases hlegal : legal s.ports.iv.toNat
  · cases h.symm.trans (exec_update_of_legal hupd hrun hlegal)
    exact .inl ⟨hlegal, rfl⟩
  · cases h.symm.trans (exec_update_of_not_legal hupd hrun hlegal)
    exact .inr rfl

theorem exec_update_yb0_eq_some {b : Byte} (h : exec i s = .next t)
    (hb : t.latch.yb0 = some b) :
    legal s.ports.iv.toNat ∧ b = replaceField hi lo s.ports.ir s.ports.iv := by
  obtain ⟨hlegal, hyb0⟩ | rfl := exec_update_next hupd h
  · exact ⟨hlegal, Option.some.inj (hb.symm.trans hyb0)⟩
  · cases hb

theorem exec_update_yb0_of_legal (h : exec i s = .next t) (hlegal : legal s.ports.iv.toNat) :
    t.latch.yb0 = some (replaceField hi lo s.ports.ir s.ports.iv) := by
  obtain ⟨hrun, -⟩ := exec_next h
  cases h.symm.trans (exec_update_of_legal hupd hrun hlegal)
  rfl

end

/-! ### The replaced field, bit by bit -/

theorem fieldByte_getLsbD (v : Byte) (hi lo k : Nat) (hk : k < 8) :
    (fieldByte v hi lo).getLsbD k = (decide (k ≤ hi - lo) && v.getLsbD (lo + k)) := by
  simp [fieldByte, hk]

section
variable {i : Instr} {hi lo : Nat} {legal : Nat → Prop} (hupd : Updates i hi lo legal)
include hupd

theorem updates_field_mem : (hi, lo) ∈ [(2, 0), (7, 5), (4, 2), (1, 0), (0, 0)] := by
  cases hupd <;> decide

theorem updates_field_bounds : lo ≤ hi ∧ hi < 8 := by
  cases hupd <;> decide

variable {code : Byte} (hcode : legal code.toNat)
include hcode

/-- A legal code is no wider than its field (R94, R96). -/
theorem legalCode_lt : code.toNat < 2 ^ (hi - lo + 1) := by
  cases hupd with
  | mode => obtain h | h | h := hcode <;> omega
  | osrsH | osrsT | osrsP | tSb | filter | spi3w => exact Nat.lt_of_le_of_lt hcode (by norm_num)

theorem legalCode_getLsbD_of_lt {k : Nat} (hk : hi - lo < k) : code.getLsbD k = false := by
  have hcodeLt := legalCode_lt hupd hcode
  exact Nat.testBit_lt_two_pow (hcodeLt.trans_le (Nat.pow_le_pow_right (by norm_num) hk))

theorem replaceField_getLsbD_of_legal (reg : Byte) {n : Nat} (hn : n < 8) :
    (replaceField hi lo reg code).getLsbD n =
      if lo ≤ n ∧ n ≤ hi then code.getLsbD (n - lo) else reg.getLsbD n := by
  obtain ⟨hle, -⟩ := updates_field_bounds hupd
  have hmask := fieldMask_bits _ (updates_field_mem hupd) n hn
  rw [replaceField_getLsbD _ _ _ _ _ hn, hmask]
  by_cases hlo : lo ≤ n
  · by_cases hhi : n ≤ hi
    · simp [hlo, hhi]
    · have habove : hi - lo < n - lo := by omega
      simp [hlo, hhi, legalCode_getLsbD_of_lt hupd hcode habove]
  · simp [hlo]

/-- The field read back after an update is the code. -/
theorem fieldByte_replaceField (reg : Byte) :
    fieldByte (replaceField hi lo reg code) hi lo = code := by
  obtain ⟨hle, hlt⟩ := updates_field_bounds hupd
  refine BitVec.eq_of_getLsbD_eq fun k hk => ?_
  rw [fieldByte_getLsbD _ _ _ _ hk]
  by_cases hin : k ≤ hi - lo
  · rw [replaceField_getLsbD_of_legal hupd hcode reg (by omega)]
    simp [hin, show lo + k ≤ hi by omega]
  · simp [hin, legalCode_getLsbD_of_lt hupd hcode (Nat.not_le.mp hin)]

theorem replaceField_eq_self_iff (reg : Byte) :
    replaceField hi lo reg code = reg ↔ fieldByte reg hi lo = code := by
  refine ⟨fun h => ?_, fun h => ?_⟩
  · rw [← h]
    exact fieldByte_replaceField hupd hcode reg
  · subst h
    refine BitVec.eq_of_getLsbD_eq fun n hn => ?_
    rw [replaceField_getLsbD_of_legal hupd hcode reg hn]
    split
    · next hin =>
      rw [fieldByte_getLsbD _ _ _ _ (by omega), Nat.add_sub_cancel' hin.1]
      simp [show n - lo ≤ hi - lo by omega]
    · rfl

theorem writeNeeded_eq_false_iff (reg : Byte) :
    writeNeeded hi lo reg code = false ↔ replaceField hi lo reg code = reg := by
  rw [replaceField_eq_self_iff hupd hcode]
  simp [writeNeeded]

end

/-- Settles O24: the new byte is IR exactly when the field of IR already holds the code. -/
theorem fieldUpdateResult : Obligations.FieldUpdateResult := by
  refine ⟨⟨rfl, rfl, rfl, rfl, rfl, rfl, rfl⟩, fun i hi lo legal s hupd hrun =>
    ⟨fun hlegal => ?_, exec_update_of_not_legal hupd hrun⟩⟩
  exact ⟨_, _, exec_update_of_legal hupd hrun hlegal,
    fun n hn => replaceField_getLsbD_of_legal hupd hlegal s.ports.ir hn, writeNeeded_iff ..,
    writeNeeded_eq_false_iff hupd hlegal s.ports.ir⟩

/-! ### Updates of one field, and of two -/

theorem exec_update_of_fieldByte_eq {i : Instr} {hi lo : Nat} {legal : Nat → Prop} {s : State}
    (hupd : Updates i hi lo legal) (hrun : s.fault = none) (hlegal : legal s.ports.iv.toNat)
    (hfield : fieldByte s.ports.ir hi lo = s.ports.iv) :
    exec i s = .next (okEnd s { Latches.bottom with
      yb0 := some s.ports.ir, yw := some false }) := by
  have hself := (replaceField_eq_self_iff hupd hlegal s.ports.ir).mpr hfield
  rw [exec_update_of_legal hupd hrun hlegal,
    (writeNeeded_eq_false_iff hupd hlegal s.ports.ir).mpr hself, hself]

/-- Settles O27: in both cases the field already holds the code. -/
theorem fieldUpdateIdempotent : Obligations.FieldUpdateIdempotent := by
  intro i hi lo legal s hupd hrun hlegal
  refine ⟨fun hcurrent => ?_, fun t s' hexec hrun' hiv hyb0 => ?_⟩
  · refine exec_update_of_fieldByte_eq hupd hrun hlegal (BitVec.eq_of_toNat_eq ?_)
    rw [fieldByte_toNat, hcurrent, bitsOf]
  · obtain ⟨-, hir⟩ := exec_update_yb0_eq_some hupd hexec hyb0
    refine exec_update_of_fieldByte_eq hupd hrun' (hiv ▸ hlegal) ?_
    rw [hir, hiv, fieldByte_replaceField hupd hlegal]

/-- Disjoint fields: the two updates write different bits, and each keeps the other's. -/
theorem replaceField_comm {i j : Instr} {hi lo hi' lo' : Nat} {legal legal' : Nat → Prop}
    (hupd : Updates i hi lo legal) (hupd' : Updates j hi' lo' legal') {code code' : Byte}
    (hcode : legal code.toNat) (hcode' : legal' code'.toNat) (hdisjoint : hi < lo' ∨ hi' < lo)
    (reg : Byte) :
    replaceField hi' lo' (replaceField hi lo reg code) code' =
      replaceField hi lo (replaceField hi' lo' reg code') code := by
  refine BitVec.eq_of_getLsbD_eq fun n hn => ?_
  simp only [replaceField_getLsbD_of_legal hupd hcode _ hn,
    replaceField_getLsbD_of_legal hupd' hcode' _ hn]
  by_cases hin : lo ≤ n ∧ n ≤ hi
  · have hout : ¬ (lo' ≤ n ∧ n ≤ hi') := by omega
    simp [hin, hout]
  · simp [hin]

/-- Settles O28: a bit lies in at most one of two disjoint fields, and the first update of either
order shows that its code is legal in the other. -/
theorem fieldUpdatesAreLocal : Obligations.FieldUpdatesAreLocal := by
  refine ⟨fun i hi lo legal s t hupd hexec hok => ?_, ?_⟩
  · obtain ⟨hlegal, hyb0⟩ | rfl := exec_update_next hupd hexec
    · refine ⟨_, hyb0, fun n hout => ?_⟩
      by_cases hn : n < 8
      · rw [replaceField_getLsbD_of_legal hupd hlegal _ hn, if_neg (by omega)]
      · rw [BitVec.getLsbD_of_ge _ _ (by omega), BitVec.getLsbD_of_ge _ _ (by omega)]
    · cases hok
  · intro i j hi lo hi' lo' legal legal' s1 s2 s3 s4 t1 t2 t3 t4 hupd hupd' hdisjoint hir hiv hiv'
      hexec1 hyb1 hexec2 hexec3 hyb3 hexec4
    obtain ⟨hlegal1, hir2⟩ := exec_update_yb0_eq_some hupd hexec1 hyb1
    obtain ⟨hlegal3, hir4⟩ := exec_update_yb0_eq_some hupd' hexec3 hyb3
    rw [exec_update_yb0_of_legal hupd' hexec2 (hiv' ▸ hlegal3),
      exec_update_yb0_of_legal hupd hexec4 (hiv ▸ hlegal1), hir2, hir4, ← hir, ← hiv, hiv',
      replaceField_comm hupd hupd' hlegal1 hlegal3 hdisjoint]

end Sys2Proof.Machine
end

section
/-! PROOFS. LOAD_CAL: how it ends, and what the parse table makes of the two calibration blocks
(spec/30_encoding.md rules R99 and R100, spec/41_calibration.md rules R161 to R164). -/

namespace Sys2Proof.Machine

open Sys2Proof.Claims

/-! ### How LOAD_CAL ends -/

theorem exec_loadCal_of_running {s : State} (hrun : s.fault = none) :
    exec .loadCal s = if s.calValid then raise s .calReload
      else finish (s.writeCal (parseCal s.params s.ports.ib s.ports.ic)) Latches.bottom :=
  accept_of_running hrun _

theorem exec_loadCal_of_unset {s : State} (hrun : s.fault = none) (hunset : s.calValid = false) :
    exec .loadCal s = .next
      ((s.writeCal (parseCal s.params s.ports.ib s.ports.ic)).completeOk Latches.bottom) := by
  simp [exec_loadCal_of_running hrun, hunset]

theorem exec_loadCal_of_valid {s : State} (hrun : s.fault = none) (hvalid : s.calValid = true) :
    exec .loadCal s = .next (s.takeFault .calReload) := by
  simp [exec_loadCal_of_running hrun, hvalid]

theorem exec_loadCal_cal {s t : State} (hunset : s.calValid = false)
    (h : exec .loadCal s = .next t) :
    t.cal = some (parseCal s.params s.ports.ib s.ports.ic) := by
  obtain ⟨-, ⟨-, rfl⟩ | ⟨hvalid, -⟩⟩ := execLoadCal_next h
  · rfl
  · exact absurd hvalid (by simp [hunset])

/-! ### The parse table on numbers -/

theorem le16_toInt (lo hi : Byte) : (le16 lo hi).toInt = leS lo hi := by
  rw [BitVec.toInt_eq_toNat_bmod, le16_toNat]
  rfl

/-- High byte and nibble stand side by side (R100). -/
theorem highByte_append_nibble_toNat (high : Byte) (nibble : BitVec 4) :
    (high ++ nibble).toNat = high.toNat * 16 + nibble.toNat := by
  rw [BitVec.toNat_append, ← Nat.shiftLeft_add_eq_or_of_lt nibble.isLt, Nat.shiftLeft_eq]

theorem packed12_false_toNat (high : Byte) (nibble : BitVec 4) :
    (packed12 false high nibble).toNat = high.toNat * 16 + nibble.toNat := by
  have hhigh := high.isLt
  have hshift : (high.setWidth 16 <<< 4).toNat = high.toNat <<< 4 := by
    simp only [BitVec.toNat_shiftLeft, BitVec.toNat_setWidth, Nat.shiftLeft_eq]
    omega
  have hnibble : (nibble.setWidth 16).toNat = nibble.toNat :=
    BitVec.toNat_setWidth_of_le (by norm_num)
  rw [packed12, if_neg Bool.false_ne_true, BitVec.toNat_or, hshift, hnibble,
    ← Nat.shiftLeft_add_eq_or_of_lt nibble.isLt, Nat.shiftLeft_eq]

/-- Without sign extension the top bit of the coefficient is clear, so its sign says nothing. -/
theorem packed12_false_toInt (high : Byte) (nibble : BitVec 4) :
    (packed12 false high nibble).toInt = (packed12 false high nibble).toNat := by
  obtain ⟨-, hrange⟩ := packed12_inRange false high nibble
  have hle := hrange rfl
  exact BitVec.toInt_eq_toNat_of_lt (by omega)

theorem packed12_toInt (signExtend : Bool) (high : Byte) (nibble : BitVec 4) :
    (packed12 signExtend high nibble).toInt =
      packedSpec signExtend (high.toNat * 16 + nibble.toNat) := by
  cases signExtend with
  | true =>
    calc (packed12 true high nibble).toInt = (high ++ nibble).toInt :=
          BitVec.toInt_signExtend_of_le (by norm_num)
      _ = packedSpec true (high.toNat * 16 + nibble.toNat) := by
          rw [BitVec.toInt_eq_toNat_bmod, highByte_append_nibble_toNat, packedSpec, if_pos rfl]
  | false =>
    rw [packed12_false_toInt, packed12_false_toNat]
    rfl

/-- The parser reads the two blocks as the table of R99 says. -/
theorem parsed_parseCal (cfg : Config) (ib : Vector Byte 26) (ic : Vector Byte 7) :
    Parsed cfg ib ic (parseCal cfg ib ic) where
  t1 := le16_toNat ..
  t2 := le16_toInt ..
  t3 := le16_toInt ..
  p1 := le16_toNat ..
  p2 := le16_toInt ..
  p3 := le16_toInt ..
  p4 := le16_toInt ..
  p5 := le16_toInt ..
  p6 := le16_toInt ..
  p7 := le16_toInt ..
  p8 := le16_toInt ..
  p9 := le16_toInt ..
  h1 := rfl
  h2 := le16_toInt ..
  h3 := rfl
  h4 := by simp [parseCal, packed12_toInt]
  h5 := by
    have hnibble : (ic[4].extractLsb' 4 4).toNat = ic[4].toNat / 16 := by
      have hlt := ic[4].isLt
      rw [BitVec.extractLsb'_toNat, Nat.shiftRight_eq_div_pow]
      omega
    simp [parseCal, packed12_toInt, hnibble]
  h6 := BitVec.toInt_eq_toNat_bmod _

/-- Settles O30: with CAL unset, LOAD_CAL completes with what the parser reads. -/
theorem loadCalResult : Obligations.LoadCalResult :=
  ⟨rfl, fun s hrun => ⟨fun hunset =>
    ⟨_, parsed_parseCal s.params s.ports.ib s.ports.ic, exec_loadCal_of_unset hrun hunset⟩,
    exec_loadCal_of_valid hrun⟩⟩

/-! ### The bytes and the ranges -/

/-- Blocks that agree on the bytes the table names under cfg parse to the same coefficients. -/
theorem parseCal_congr {cfg : Config} {ib ib' : Vector Byte 26} (ic : Vector Byte 7)
    (hagree : ∀ n, (h : n < 26) → n ≠ (if cfg.h1Index = .i25 then 24 else 25) → ib[n] = ib'[n]) :
    parseCal cfg ib ic = parseCal cfg ib' ic := by
  have hwords : ∀ n, (h : n < 24) → ib[n] = ib'[n] := fun n h =>
    hagree n (by omega) (by split <;> omega)
  have hh1 : h1Byte cfg.h1Index ib = h1Byte cfg.h1Index ib' := by
    cases hindex : cfg.h1Index with
    | i25 => exact hagree 25 (by norm_num) (by simp [hindex])
    | i24 => exact hagree 24 (by norm_num) (by simp [hindex])
  simp [parseCal, hwords, hh1]

/-- Settles O31: CAL is what the parser reads, and the parser reads only bytes the blocks agree
on. -/
theorem parseReadsOnlyNamedBytes : Obligations.ParseReadsOnlyNamedBytes := by
  intro s s' t t' hparams hic hagree hunset hunset' h h'
  rw [exec_loadCal_cal hunset h, exec_loadCal_cal hunset' h', ← hparams, ← hic,
    parseCal_congr s.ports.ic hagree]

theorem packed12_false_toInt_bounds (high : Byte) (nibble : BitVec 4) :
    0 ≤ (packed12 false high nibble).toInt ∧ (packed12 false high nibble).toInt ≤ 4095 := by
  obtain ⟨-, hrange⟩ := packed12_inRange false high nibble
  have hle := hrange rfl
  rw [packed12_false_toInt]
  omega

theorem packed12_true_toInt_bounds (high : Byte) (nibble : BitVec 4) :
    -2048 ≤ (packed12 true high nibble).toInt ∧ (packed12 true high nibble).toInt ≤ 2047 := by
  obtain ⟨hrange, -⟩ := packed12_inRange true high nibble
  exact hrange rfl

/-- Settles O32: H4 and H5 are the packed coefficients the parser reads. -/
theorem packedCoefficientRanges : Obligations.PackedCoefficientRanges := by
  intro s t c hunset h hc
  cases (exec_loadCal_cal hunset h).symm.trans hc
  refine ⟨fun hbuild => ?_, fun hbuild => ?_⟩ <;> simp only [parseCal, hbuild]
  · exact ⟨packed12_false_toInt_bounds .., packed12_false_toInt_bounds ..⟩
  · exact ⟨packed12_true_toInt_bounds .., packed12_true_toInt_bounds ..⟩

end Sys2Proof.Machine
end

section
/-! PROOFS. The typed arithmetic of the compensation formulas on integers (spec/00_scope.md rules
R15 to R17, spec/42_compensation.md rules R182 and R183). -/

namespace Sys2Proof.Machine

open Sys2Proof.Claims

/-! ### Words read as s32, s64 and u32 (R182) -/

theorem toInt_eq_s32_toNat (x : Word) : x.toInt = s32 x.toNat := BitVec.toInt_eq_toNat_bmod x

theorem u32_s32 (n : Int) : u32 (s32 n) = u32 n := Int.bmod_emod

theorem toNat_eq_u32_toInt (x : Word) : (x.toNat : Int) = u32 x.toInt := by
  have hlt := x.isLt
  rw [toInt_eq_s32_toNat, u32_s32, u32]
  omega

/-- Every operator on s32 is the exact one, its result reduced into s32. -/
theorem word_ops_toInt :
    (∀ x y : Word, (x + y).toInt = s32 (x.toInt + y.toInt)) ∧
    (∀ x y : Word, (x - y).toInt = s32 (x.toInt - y.toInt)) ∧
    (∀ x y : Word, (x * y).toInt = s32 (x.toInt * y.toInt)) ∧
    (∀ (x : Word) (k : Nat), (x <<< k).toInt = s32 (x.toInt * 2 ^ k)) ∧
    ∀ (x : Word) (k : Nat), (x.sshiftRight k).toInt = shr x.toInt k :=
  ⟨BitVec.toInt_add, fun _ _ => BitVec.toInt_sub, BitVec.toInt_mul, shiftLeft_toInt,
    sshiftRight_toInt⟩

/-- Every operator on s64 is the exact one, its result reduced into s64; so is the quotient
(R195). -/
theorem dword_ops_toInt :
    (∀ x y : Dword, (x + y).toInt = s64 (x.toInt + y.toInt)) ∧
    (∀ x y : Dword, (x - y).toInt = s64 (x.toInt - y.toInt)) ∧
    (∀ x y : Dword, (x * y).toInt = s64 (x.toInt * y.toInt)) ∧
    (∀ (x : Dword) (k : Nat), (x <<< k).toInt = s64 (x.toInt * 2 ^ k)) ∧
    (∀ (x : Dword) (k : Nat), (x.sshiftRight k).toInt = shr x.toInt k) ∧
    ∀ x y : Dword, (x.sdiv y).toInt = s64 (x.toInt.tdiv y.toInt) :=
  ⟨BitVec.toInt_add, fun _ _ => BitVec.toInt_sub, BitVec.toInt_mul, shiftLeft_toInt,
    sshiftRight_toInt, BitVec.toInt_sdiv⟩

theorem sub_toNat_u32 (x y : Word) : ((x - y).toNat : Int) = u32 (x.toNat - y.toNat) := by
  have hx := x.isLt
  have hy := y.isLt
  rw [BitVec.toNat_sub, u32]
  omega

/-- Every operator on u32 is the exact one, its result reduced into u32. -/
theorem word_ops_toNat :
    (∀ x y : Word, ((x - y).toNat : Int) = u32 (x.toNat - y.toNat)) ∧
    (∀ x y : Word, ((x * y).toNat : Int) = u32 (x.toNat * y.toNat)) ∧
    (∀ (x : Word) (k : Nat), ((x <<< k).toNat : Int) = u32 (x.toNat * 2 ^ k)) ∧
    (∀ (x : Word) (k : Nat), ((x >>> k).toNat : Int) = shr x.toNat k) ∧
    ∀ x y : Word, ((x / y).toNat : Int) = (x.toNat : Int) / y.toNat :=
  ⟨sub_toNat_u32, fun _ _ => by simp [u32], fun _ _ => by simp [u32, Nat.shiftLeft_eq],
    fun _ _ => by simp [shr, Nat.shiftRight_eq_div_pow], fun _ _ => by simp⟩

/-! ### The scaling primitive (R183) -/

theorem one_shiftLeft_toInt {k : Nat} (hk : k ≤ 14) : (1#32 <<< k).toInt = 2 ^ k := by
  rw [← BitVec.twoPow_eq, BitVec.toInt_twoPow, if_neg (by omega), if_neg (by omega)]

theorem tsc_toInt (m : TempScaling) (x : Word) {k : Nat} (hk : k ≤ 14) :
    (tsc m x k).toInt = tscInt m x.toInt k := by
  cases m with
  | floor => exact sshiftRight_toInt x k
  | trunc =>
    have hdivisor := one_shiftLeft_toInt hk
    have hpos : (0 : Int) < 2 ^ k := by positivity
    have hne : 1#32 <<< k ≠ -1#32 := by
      intro h
      rw [h] at hdivisor
      exact absurd (hdivisor ▸ hpos) (by decide)
    calc (x.sdiv (1#32 <<< k)).toInt = x.toInt.tdiv (1#32 <<< k).toInt :=
          BitVec.toInt_sdiv_of_ne_or_ne _ _ (.inr hne)
      _ = x.toInt.tdiv (2 ^ k) := by rw [hdivisor]

/-- Settles O33: on a non-negative operand the floor is the truncated quotient. -/
theorem scalingPrimitive : Obligations.ScalingPrimitive := by
  intro x k _ hk
  have hfloor := tsc_toInt .floor x hk
  have htrunc := tsc_toInt .trunc x hk
  refine ⟨hfloor, htrunc, fun hx => BitVec.toInt_inj.mp ?_⟩
  rw [hfloor, htrunc]
  exact (Int.tdiv_eq_ediv_of_nonneg hx).symm

/-! ### Between the readings of a word -/

theorem ushiftRight_toInt_s32 (x : Word) (k : Nat) : (x >>> k).toInt = s32 (shr x.toNat k) := by
  obtain ⟨-, -, -, hshift, -⟩ := word_ops_toNat
  rw [toInt_eq_s32_toNat, hshift]

theorem sshiftRight_toNat_u32 (x : Word) (k : Nat) :
    ((x.sshiftRight k).toNat : Int) = u32 (shr x.toInt k) := by
  rw [toNat_eq_u32_toInt, sshiftRight_toInt, shr]

/-- The low 32 bits of an s64 (R193). -/
theorem setWidth_toNat_u32 (x : Dword) : ((x.setWidth 32).toNat : Int) = u32 x.toInt := by
  have hmod : x.toInt % 2 ^ 64 = x.toNat % 2 ^ 64 := by
    rw [BitVec.toInt_eq_toNat_bmod]
    exact Int.bmod_emod
  rw [BitVec.toNat_setWidth, u32]
  omega

theorem eq_zero_iff_toInt {w : Nat} (x : BitVec w) : x = 0#w ↔ x.toInt = 0 := by
  rw [← BitVec.toInt_inj, BitVec.toInt_zero]

theorem eq_ofInt_of_toInt {x : Word} {n : Int} (h : x.toInt = n) : x = BitVec.ofInt 32 n := by
  rw [← h, BitVec.ofInt_toInt]

theorem eq_ofInt_of_toNat {x : Word} {n : Int} (h : (x.toNat : Int) = n) :
    x = BitVec.ofInt 32 n := by
  rw [← h, BitVec.ofInt_natCast, BitVec.ofNat_toNat, BitVec.setWidth_eq]

/-- A raw code reads the same as s32 and as a number (R181). -/
theorem toInt_eq_toNat_of_raw {x : Word} (h : x.toNat ≤ 0xFFFFF) : x.toInt = x.toNat :=
  BitVec.toInt_eq_toNat_of_lt (by omega)

end Sys2Proof.Machine
end

section
/-! PROOFS. The compensation formulas on integers (spec/42_compensation.md rules R184 to R198): the
operators of each line are the exact ones, reduced as the line's type says. -/

namespace Sys2Proof.Machine

open Sys2Proof.Claims

/-! ### Temperature (R184) -/

theorem tempFine_toInt (m : TempScaling) (c : Cal) (adc : Word) :
    (tempFine m c adc).toInt = fineSpec m c adc.toInt := by
  simp only [tempFine, tempVar1, tempVar2, fineSpec, word_ops_toInt, tsc_toInt, sext_toInt,
    zext_toInt, Nat.reduceLeDiff, Nat.reduceLT, pow_one]

theorem tempOfFine_toInt (m : TempScaling) (fine : Word) :
    (tempOfFine m fine).toInt = temperatureSpec m fine.toInt := by
  simp only [tempOfFine, temperatureSpec, word_ops_toInt, tsc_toInt, Nat.reduceLeDiff,
    BitVec.reduceToInt]

/-! ### Pressure, 32-bit path (R187 to R189) -/

theorem p32Denominator_toInt (c : Cal) (tfine : Word) :
    (p32Denominator c tfine).toInt = p32DenominatorSpec c tfine.toInt := by
  simp only [p32Denominator, p32Start, p32DenominatorSpec, word_ops_toInt, sext_toInt, zext_toInt,
    Nat.reduceLeDiff, Nat.reduceLT, BitVec.reduceToInt]

/-- The two branches of R189: the dividend and the divisor are read as u32. -/
theorem p32Quotient_toNat (p d : Word) :
    ((p32Quotient p d).toNat : Int) =
      if (p.toNat : Int) < 0x80000000 then u32 (p.toNat * 2) / u32 d.toInt
      else u32 (p.toNat / u32 d.toInt * 2) := by
  have hbranch : p < 0x80000000#32 ↔ (p.toNat : Int) < 0x80000000 :=
    BitVec.lt_def.trans Int.ofNat_lt.symm
  simp only [p32Quotient, hbranch]
  split
  · simp only [word_ops_toNat, toNat_eq_u32_toInt d, pow_one]
  · simp only [word_ops_toNat, toNat_eq_u32_toInt d, BitVec.reduceToNat, Nat.cast_ofNat]

/-- Past the guard, p is u32 up to the quotient, and the correction added to it is s32. -/
theorem pressure32_toNat (c : Cal) (tfine adc : Word) :
    ((pressure32 c tfine adc).toNat : Int) = pressure32Spec c tfine.toInt adc.toNat := by
  unfold pressure32 pressure32Spec
  simp only [eq_zero_iff_toInt, p32Denominator_toInt]
  split
  · rfl
  · rw [toNat_eq_u32_toInt]
    simp only [p32Finish, p32Offset, p32Start, word_ops_toInt, word_ops_toNat, sext_toInt,
      toInt_eq_s32_toNat (p32Quotient _ _), p32Quotient_toNat, ushiftRight_toInt_s32,
      sshiftRight_toNat_u32, u32_s32, p32Denominator_toInt, Nat.reduceLeDiff, BitVec.reduceToInt,
      BitVec.reduceToNat, Nat.cast_ofNat, pow_one]

/-! ### Pressure, 64-bit path (R192, R193, R195) -/

theorem p64Denominator_toInt (c : Cal) (tfine : Word) :
    (p64Denominator c tfine).toInt = p64DenominatorSpec c tfine.toInt := by
  have hone : s64 (1 * 2 ^ 47) = 2 ^ 47 := rfl
  simp only [p64Denominator, p64Start, p64DenominatorSpec, dword_ops_toInt, hone, sext_toInt,
    zext_toInt, Nat.reduceLeDiff, Nat.reduceLT, BitVec.reduceToInt]

theorem pressure64_toNat (c : Cal) (tfine adc : Word) :
    ((pressure64 c tfine adc).toNat : Int) = pressure64Spec c tfine.toInt adc.toNat := by
  unfold pressure64 pressure64Spec
  simp only [eq_zero_iff_toInt, p64Denominator_toInt]
  split
  · rfl
  · simp only [setWidth_toNat_u32, p64Finish, p64Offset, p64Start, dword_ops_toInt, sext_toInt,
      zext_toInt, p64Denominator_toInt, Nat.reduceLeDiff, Nat.reduceLT, BitVec.reduceToInt]

/-! ### Humidity (R196 to R198) -/

theorem humidity_toInt (c : Cal) (tfine adc : Word) :
    (humidity c tfine adc).toInt = humiditySpec c tfine.toInt adc.toInt := by
  simp only [humidity, humidityRaw, humiditySpec, clampHumidity_toInt, word_ops_toInt, sext_toInt,
    zext_toInt, Nat.reduceLeDiff, Nat.reduceLT, BitVec.reduceToInt]

/-- The upper end of the clamp is 102400 * 2^12. -/
theorem humidity_toNat_le (c : Cal) (tfine adc : Word) : (humidity c tfine adc).toNat ≤ 102400 := by
  have hclamp : (humidity c tfine adc).toInt =
      max 0 (min (humidityRaw c tfine adc).toInt 419430400) / 2 ^ 12 := by
    rw [humidity, sshiftRight_toInt, clampHumidity_toInt]
  have hread := toNat_eq_u32_toInt (humidity c tfine adc)
  rw [u32] at hread
  omega

/-! ### P1 = 0 (R187, R192) -/

theorem pressure32_of_p1_zero {c : Cal} (hp1 : c.p1 = 0) (tfine adc : Word) :
    pressure32 c tfine adc = 0 := by
  have hguard : p32Denominator c tfine = 0 := by simp [p32Denominator, hp1, zext]
  simp [pressure32, hguard]

theorem pressure64_of_p1_zero {c : Cal} (hp1 : c.p1 = 0) (tfine adc : Word) :
    pressure64 c tfine adc = 0 := by
  have hguard : p64Denominator c tfine = 0 := by simp [p64Denominator, hp1, zext]
  simp [pressure64, hguard]

/-! ### Units -/

/-- Settles O40: each unit is a scale of the word's number. -/
theorem resultUnits : Obligations.ResultUnits := by
  have hint : (2508#32).toInt = 2508 := rfl
  unfold Obligations.ResultUnits celsius pascals32 pascals64 percentRh
  rw [hint]
  norm_num

end Sys2Proof.Machine
end

section
/-! PROOFS. How the compensation commands end (spec/42_compensation.md rules R180, R184, R188, R193
and R197 to R199): the checks in order, then the formula's value. -/

namespace Sys2Proof.Machine

open Sys2Proof.Claims

/-! ### COMP_T -/

theorem exec_compT_of_running {s : State} (hrun : s.fault = none) :
    exec .compT s = requireLegal (isRaw20 s.ports.ix) s (withCal s fun c =>
      finish (s.writeTfine (tempFine s.params.tempScaling c s.ports.ix))
        (y0Only (tempOfFine s.params.tempScaling (tempFine s.params.tempScaling c s.ports.ix)))) :=
  accept_of_running hrun _

/-- A check that accepts up to a bound refuses above it. -/
theorem eq_false_of_bound_lt {legal : Bool} {n bound : Nat} (hlegal : legal = true ↔ n ≤ bound)
    (h : bound < n) : legal = false :=
  Bool.eq_false_iff.mpr fun htrue => absurd (hlegal.mp htrue) (Nat.not_le.mpr h)

/-- Settles O34: a raw code is non-negative as s32, and the temperature is that of the fine
temperature written. -/
theorem compTResult : Obligations.CompTResult := by
  refine ⟨rfl, fun s hrun => ?_⟩
  rw [exec_compT_of_running hrun]
  refine ⟨fun c hix hvalid hc => ?_, fun hix => ?_, fun hix hunset => ?_⟩
  · intro fine
    have hfine : (tempFine s.params.tempScaling c s.ports.ix).toInt = fine := by
      rw [tempFine_toInt, toInt_eq_toNat_of_raw hix]
    have htemp : (tempOfFine s.params.tempScaling
        (tempFine s.params.tempScaling c s.ports.ix)).toInt =
          temperatureSpec s.params.tempScaling fine := by
      rw [tempOfFine_toInt, hfine]
    rw [(isRaw20_iff _).mpr hix, withCal_of_valid hvalid hc, ← eq_ofInt_of_toInt hfine,
      ← eq_ofInt_of_toInt htemp]
    rfl
  · rw [eq_false_of_bound_lt (isRaw20_iff _) hix]
    rfl
  · rw [(isRaw20_iff _).mpr hix, withCal_of_unset hunset]
    rfl

/-! ### The commands that need CAL and TFINE -/

/-- What COMP_P32, COMP_P64 and COMP_H share after the check of the build: the three checks of R180
in order, then Y0 by the formula y. -/
def compensate (legal : Bool) (s : State) (y : Cal → Word → Word) : Result :=
  requireLegal legal s <| withCal s fun c => withTfine s fun f => finish s (y0Only (y c f))

theorem exec_compP32_of_running {s : State} (hrun : s.fault = none) :
    exec .compP32 s = requireBuilt .compP32 s (compensate (isRaw20 s.ports.ix) s
      fun c f => pressure32 c f s.ports.ix) :=
  accept_of_running hrun _

theorem exec_compP64_of_running {s : State} (hrun : s.fault = none) :
    exec .compP64 s = requireBuilt .compP64 s (compensate (isRaw20 s.ports.ix) s
      fun c f => pressure64 c f s.ports.ix) :=
  accept_of_running hrun _

theorem exec_compH_of_running {s : State} (hrun : s.fault = none) :
    exec .compH s = compensate (isRaw16 s.ports.ix) s fun c f => humidity c f s.ports.ix :=
  accept_of_running hrun _

section
variable {s : State} {c : Cal} {f : Word}

theorem compensate_of_set (hvalid : s.calValid = true) (hc : s.cal = some c)
    (hfvalid : s.tfineValid = true) (hf : s.tfine = some f) (y : Cal → Word → Word) :
    compensate true s y = .next (okEnd s (y0Only (y c f))) := by
  rw [compensate, withCal_of_valid hvalid hc, withTfine_of_valid hfvalid hf]
  rfl

theorem compensate_of_calUnset (hunset : s.calValid = false) (y : Cal → Word → Word) :
    compensate true s y = .next (faultEnd s .calUnset) := by
  rw [compensate, withCal_of_unset hunset]
  rfl

theorem compensate_of_tfineUnset (hvalid : s.calValid = true) (hc : s.cal = some c)
    (hfunset : s.tfineValid = false) (y : Cal → Word → Word) :
    compensate true s y = .next (faultEnd s .tfineUnset) := by
  rw [compensate, withCal_of_valid hvalid hc, withTfine_of_unset hfunset]
  rfl

end

/-- The ends of the shared checks, for a raw code that is legal up to a bound. -/
theorem compensate_ends {s : State} {legal : Bool} {bound : Nat} {y spec : Cal → Word → Word}
    (hlegal : legal = true ↔ s.ports.ix.toNat ≤ bound)
    (hspec : ∀ c f, s.ports.ix.toNat ≤ bound → y c f = spec c f) :
    (∀ c f, s.ports.ix.toNat ≤ bound → s.calValid = true → s.cal = some c →
      s.tfineValid = true → s.tfine = some f →
      compensate legal s y = .next (okEnd s (y0Only (spec c f)))) ∧
    (bound < s.ports.ix.toNat → compensate legal s y = .next (paramErrorEnd s)) ∧
    (s.ports.ix.toNat ≤ bound → s.calValid = false →
      compensate legal s y = .next (faultEnd s .calUnset)) ∧
    (∀ c, s.ports.ix.toNat ≤ bound → s.calValid = true → s.cal = some c →
      s.tfineValid = false → compensate legal s y = .next (faultEnd s .tfineUnset)) := by
  refine ⟨fun c f hix hvalid hc hfvalid hf => ?_, fun hix => ?_, fun hix hunset => ?_,
    fun c hix hvalid hc hfunset => ?_⟩
  · rw [hlegal.mpr hix, compensate_of_set hvalid hc hfvalid hf, hspec c f hix]
  · rw [eq_false_of_bound_lt hlegal hix]
    rfl
  · rw [hlegal.mpr hix, compensate_of_calUnset hunset]
  · rw [hlegal.mpr hix, compensate_of_tfineUnset hvalid hc hfunset]

/-! ### The check of the build -/

/-- The commands of a path left out are those that are not well-formed in the build (R82). -/
theorem wellFormed_eq_false_iff_leftOut (v : PressVariants) (i : Instr) :
    i.wellFormed v = false ↔ leftOut v i := by
  cases i <;> simp [Instr.wellFormed, leftOut]

theorem requireBuilt_of_leftOut {i : Instr} {s : State} (h : leftOut s.params.press i)
    (body : Result) : requireBuilt i s body = .next (faultEnd s .illegalCmd) :=
  if_neg (Bool.eq_false_iff.mp ((wellFormed_eq_false_iff_leftOut _ _).mpr h))

theorem requireBuilt_of_not_leftOut {i : Instr} {s : State} (h : ¬ leftOut s.params.press i)
    (body : Result) : requireBuilt i s body = body :=
  if_pos (by rwa [← Bool.not_eq_false, wellFormed_eq_false_iff_leftOut])

theorem not_leftOut_compP32 {v : PressVariants} (h : v ≠ .p64Only) : ¬ leftOut v .compP32 := by
  simp [leftOut, h]

theorem not_leftOut_compP64 {v : PressVariants} (h : v ≠ .p32Only) : ¬ leftOut v .compP64 := by
  simp [leftOut, h]

/-! ### The results of COMP_P32, COMP_P64 and COMP_H -/

/-- Settles O35: the shared checks after that of the build, and the formula's value as u32. -/
theorem compP32Result : Obligations.CompP32Result := by
  refine ⟨rfl, fun s hrun => ?_⟩
  rw [exec_compP32_of_running hrun]
  refine ⟨fun hout => requireBuilt_of_leftOut (.inl ⟨rfl, hout⟩) _, fun hbuilt => ?_⟩
  rw [requireBuilt_of_not_leftOut (not_leftOut_compP32 hbuilt)]
  exact compensate_ends (isRaw20_iff _) fun c f _ =>
    eq_ofInt_of_toNat (pressure32_toNat c f s.ports.ix)

/-- Settles O36: the shared checks after that of the build, and the low word of the formula's
value as u32. -/
theorem compP64Result : Obligations.CompP64Result := by
  refine ⟨rfl, fun s hrun => ?_⟩
  rw [exec_compP64_of_running hrun]
  refine ⟨fun hout => requireBuilt_of_leftOut (.inr ⟨rfl, hout⟩) _, fun hbuilt => ?_⟩
  rw [requireBuilt_of_not_leftOut (not_leftOut_compP64 hbuilt)]
  exact compensate_ends (isRaw20_iff _) fun c f _ =>
    eq_ofInt_of_toNat (pressure64_toNat c f s.ports.ix)

/-- Settles O37: the shared checks, and the formula's value as s32, where a 16-bit code is
non-negative. -/
theorem compHResult : Obligations.CompHResult := by
  refine ⟨rfl, fun s hrun => ?_⟩
  rw [exec_compH_of_running hrun]
  refine compensate_ends (isRaw16_iff _) fun c f hix => eq_ofInt_of_toInt ?_
  rw [humidity_toInt, toInt_eq_toNat_of_raw (hix.trans (by norm_num))]

/-- Settles O38: a COMP_H that completes with OK leaves the clamped value. -/
theorem humidityNeverAboveFull : Obligations.HumidityNeverAboveFull := by
  intro s t h hok
  obtain ⟨hrun, -⟩ := exec_next h
  rw [exec_compH_of_running hrun] at h
  obtain ⟨-, h⟩ | ⟨-, rfl⟩ := requireLegal_next h
  · obtain ⟨c, f, -, -, -, -, rfl⟩ | ⟨-, rfl⟩ | ⟨-, -, rfl⟩ := withCal_withTfine_next h
    · have hle := humidity_toNat_le c f s.ports.ix
      refine ⟨_, rfl, hle, ?_⟩
      have hcast : ((humidity c f s.ports.ix).toNat : ℚ) ≤ 102400 := by exact_mod_cast hle
      rw [percentRh, div_le_iff₀ (by norm_num)]
      linarith
    · cases hok
    · cases hok
  · cases hok

/-- Settles O39: the factor P1 makes both denominators 0. -/
theorem zeroP1GivesZeroPressure : Obligations.ZeroP1GivesZeroPressure := by
  intro s c f hrun hix hvalid hc hfvalid hf hp1
  refine ⟨fun hbuilt => ?_, fun hbuilt => ?_⟩
  · rw [exec_compP32_of_running hrun, requireBuilt_of_not_leftOut (not_leftOut_compP32 hbuilt),
      (isRaw20_iff _).mpr hix, compensate_of_set hvalid hc hfvalid hf, pressure32_of_p1_zero hp1]
  · rw [exec_compP64_of_running hrun, requireBuilt_of_not_leftOut (not_leftOut_compP64 hbuilt),
      (isRaw20_iff _).mpr hix, compensate_of_set hvalid hc hfvalid hf, pressure64_of_p1_zero hp1]

end Sys2Proof.Machine
end

section
/-! PROOFS. The outcome of every command (spec/42_compensation.md rule R180, spec/60_exceptions.md
rules R250 to R255): the checks of the build, of the operands and of the state, in this order. -/

namespace Sys2Proof.Machine

open Sys2Proof.Claims

/-! ### The check of the state -/

theorem calFlag_cases {s : State} (h : s.calFlag) :
    s.calValid = false ∨ ∃ c, s.calValid = true ∧ s.cal = some c := by
  cases hvalid : s.calValid with
  | false => exact .inl rfl
  | true =>
    obtain ⟨c, hc⟩ := Option.isSome_iff_exists.mp (h.symm.trans hvalid)
    exact .inr ⟨c, rfl, hc⟩

theorem tfineFlag_cases {s : State} (h : s.tfineFlag) :
    s.tfineValid = false ∨ ∃ f, s.tfineValid = true ∧ s.tfine = some f := by
  cases hvalid : s.tfineValid with
  | false => exact .inl rfl
  | true =>
    obtain ⟨f, hf⟩ := Option.isSome_iff_exists.mp (h.symm.trans hvalid)
    exact .inr ⟨f, rfl, hf⟩

/-- r completes with OK, one command after s, and does not halt. -/
def CompletesOk (s : State) (r : Result) : Prop :=
  ∃ t, r = .next t ∧ t.status = some .ok ∧ t.fault = none ∧ t.index = s.index + 1

/-- r is how i ends in s once its operands are accepted: in the fault of the state, or with OK. -/
def EndsByState (i : Instr) (s : State) (r : Result) : Prop :=
  (∀ k, stateFault i s = some k → r = .next (faultEnd s k)) ∧
  (stateFault i s = none → CompletesOk s r)

section
variable {i : Instr} {s : State}

theorem completesOk_finish {u : State} (hrun : u.fault = none) (hindex : u.index = s.index)
    (l : Latches) : CompletesOk s (finish u l) :=
  ⟨_, rfl, rfl, hrun, congrArg (· + 1) hindex⟩

theorem endsByState_raise {k : FaultKind} (h : stateFault i s = some k) :
    EndsByState i s (raise s k) :=
  ⟨fun k' hk' => by cases h.symm.trans hk'; rfl, fun hnone => by cases h.symm.trans hnone⟩

theorem endsByState_of_completesOk {r : Result} (h : stateFault i s = none)
    (hr : CompletesOk s r) : EndsByState i s r :=
  ⟨fun k hk => (by cases h.symm.trans hk), fun _ => hr⟩

theorem endsByState_loadCal (hrun : s.fault = none) :
    EndsByState .loadCal s (if s.calValid then raise s .calReload
      else finish (s.writeCal (parseCal s.params s.ports.ib s.ports.ic)) Latches.bottom) := by
  cases hvalid : s.calValid with
  | false =>
    exact endsByState_of_completesOk (by simp [stateFault, hvalid])
      (completesOk_finish (u := s.writeCal _) hrun rfl _)
  | true => exact endsByState_raise (by simp [stateFault, hvalid])

theorem endsByState_compT (hcal : s.calFlag) (hrun : s.fault = none) (fine : Cal → Word)
    (l : Cal → Latches) :
    EndsByState .compT s (withCal s fun c => finish (s.writeTfine (fine c)) (l c)) := by
  obtain hunset | ⟨c, hvalid, hc⟩ := calFlag_cases hcal
  · rw [withCal_of_unset hunset]
    exact endsByState_raise (by simp [stateFault, hunset])
  · rw [withCal_of_valid hvalid hc]
    exact endsByState_of_completesOk (by simp [stateFault, hvalid])
      (completesOk_finish (u := s.writeTfine _) hrun rfl _)

/-- COMP_P32, COMP_P64 and COMP_H need CAL first, then TFINE. -/
theorem endsByState_compensate (hi : i ∈ [Instr.compP32, .compP64, .compH]) (hcal : s.calFlag)
    (htfine : s.tfineFlag) (hrun : s.fault = none) (l : Cal → Word → Latches) :
    EndsByState i s (withCal s fun c => withTfine s fun f => finish s (l c f)) := by
  have hfault : stateFault i s = stateFault .compH s := by
    simp only [List.mem_cons, List.not_mem_nil, or_false] at hi
    obtain rfl | rfl | rfl := hi <;> rfl
  obtain hunset | ⟨c, hvalid, hc⟩ := calFlag_cases hcal
  · rw [withCal_of_unset hunset]
    exact endsByState_raise (hfault.trans (by simp [stateFault, hunset]))
  rw [withCal_of_valid hvalid hc]
  obtain hfunset | ⟨f, hfvalid, hf⟩ := tfineFlag_cases htfine
  · rw [withTfine_of_unset hfunset]
    exact endsByState_raise (hfault.trans (by simp [stateFault, hvalid, hfunset]))
  · rw [withTfine_of_valid hfvalid hf]
    exact endsByState_of_completesOk (hfault.trans (by simp [stateFault, hvalid, hfvalid]))
      (completesOk_finish hrun rfl _)

end

/-! ### The order of the checks -/

/-- Every command checks the build, then its operands, then the state. -/
theorem exec_eq_checks {s : State} (hcal : s.calFlag) (htfine : s.tfineFlag)
    (hrun : s.fault = none) (i : Instr) :
    ∃ (legal : Bool) (r : Result), (legal = true ↔ ¬ paramCause i s.ports) ∧ EndsByState i s r ∧
      exec i s = requireBuilt i s (requireLegal legal s r) := by
  have hfinish : stateFault i s = none → ∀ l, EndsByState i s (finish s l) := fun h l =>
    endsByState_of_completesOk h (completesOk_finish hrun rfl l)
  cases i with
  | encConfig =>
    exact ⟨_, _, (icfgLegal_iff _).trans not_not.symm, hfinish rfl _, accept_of_running hrun _⟩
  | decCtrlHum | decCtrlMeas | decConfig | decRaw | splitT | splitP32 | splitP64 | splitH | fltT
  | fltP32 | fltP64 | fltH =>
    exact ⟨true, _, by simp [paramCause], hfinish rfl _, accept_of_running hrun _⟩
  | updOsrsH | updOsrsT | updOsrsP =>
    exact ⟨_, _, (osrsLegal_iff _).trans Nat.not_lt.symm, hfinish rfl _, accept_of_running hrun _⟩
  | updMode =>
    exact ⟨_, _, (modeLegal_iff _).trans not_not.symm, hfinish rfl _, accept_of_running hrun _⟩
  | updTSb =>
    exact ⟨_, _, (tSbLegal_iff _).trans Nat.not_lt.symm, hfinish rfl _, accept_of_running hrun _⟩
  | updFilter =>
    exact ⟨_, _, (filterLegal_iff _).trans Nat.not_lt.symm, hfinish rfl _,
      accept_of_running hrun _⟩
  | updSpi3w =>
    exact ⟨_, _, (spi3wLegal_iff _).trans Nat.not_lt.symm, hfinish rfl _,
      accept_of_running hrun _⟩
  | loadCal =>
    exact ⟨true, _, by simp [paramCause], endsByState_loadCal hrun, accept_of_running hrun _⟩
  | compT =>
    exact ⟨_, _, (isRaw20_iff _).trans Nat.not_lt.symm, endsByState_compT hcal hrun _ _,
      accept_of_running hrun _⟩
  | compP32 | compP64 =>
    exact ⟨_, _, (isRaw20_iff _).trans Nat.not_lt.symm,
      endsByState_compensate (by simp) hcal htfine hrun _, accept_of_running hrun _⟩
  | compH =>
    exact ⟨_, _, (isRaw16_iff _).trans Nat.not_lt.symm,
      endsByState_compensate (by simp) hcal htfine hrun _, accept_of_running hrun _⟩

/-- Settles O9: each check of the common order ends the command or passes it on. -/
theorem commandOutcomePriority : Obligations.CommandOutcomePriority := by
  intro i s hcal htfine hrun
  obtain ⟨legal, r, hlegal, hstate, hexec⟩ := exec_eq_checks hcal htfine hrun i
  rw [hexec]
  refine ⟨fun hout => requireBuilt_of_leftOut hout _, fun hin hcause => ?_,
    fun hin haccepted => ?_⟩
  · rw [requireBuilt_of_not_leftOut hin, Bool.eq_false_iff.mpr fun h => hlegal.mp h hcause]
    rfl
  · rw [requireBuilt_of_not_leftOut hin, hlegal.mpr haccepted]
    exact hstate

end Sys2Proof.Machine
end

section
/-! PROOFS. What the compensation results depend on (spec/42_compensation.md rules R199 and
R200). -/

namespace Sys2Proof.Machine

open Sys2Proof.Claims

/-! ### The same inputs give the same results -/

/-- Two running states with the same inputs of the compensation commands. -/
structure SameInputs (s s' : State) : Prop where
  ix : s.ports.ix = s'.ports.ix
  params : s.params = s'.params
  cal : s.cal = s'.cal
  calValid : s.calValid = s'.calValid
  tfine : s.tfine = s'.tfine
  tfineValid : s.tfineValid = s'.tfineValid
  running : s.fault = none
  running' : s'.fault = none

/-- The results r and r' leave the same STATUS, latches, FAULT and TFINE. -/
def SameResults (r r' : Result) : Prop :=
  ∃ t t', r = .next t ∧ r' = .next t' ∧ t.status = t'.status ∧ t.latch = t'.latch ∧
    t.fault = t'.fault ∧ t.tfine = t'.tfine

section
variable {s s' : State} (h : SameInputs s s')
include h

theorem SameInputs.finish (l : Latches) : SameResults (finish s l) (finish s' l) :=
  ⟨_, _, rfl, rfl, rfl, rfl, h.running.trans h.running'.symm, h.tfine⟩

theorem SameInputs.finish_writeTfine (f : Word) (l : Latches) :
    SameResults (Machine.finish (s.writeTfine f) l) (Machine.finish (s'.writeTfine f) l) :=
  ⟨_, _, rfl, rfl, rfl, rfl, h.running.trans h.running'.symm, rfl⟩

theorem SameInputs.raise (k : FaultKind) : SameResults (raise s k) (raise s' k) :=
  ⟨_, _, rfl, rfl, rfl, rfl, rfl, h.tfine⟩

theorem SameInputs.requireBuilt (i : Instr) {r r' : Result} (hr : SameResults r r') :
    SameResults (requireBuilt i s r) (requireBuilt i s' r') := by
  unfold Machine.requireBuilt
  rw [h.params]
  split
  · exact hr
  · exact h.raise _

theorem SameInputs.requireLegal (legal : Bool) {r r' : Result} (hr : SameResults r r') :
    SameResults (requireLegal legal s r) (requireLegal legal s' r') := by
  cases legal with
  | true => exact hr
  | false => exact ⟨_, _, rfl, rfl, rfl, rfl, h.running.trans h.running'.symm, h.tfine⟩

theorem SameInputs.withCal {body body' : Cal → Result}
    (hbody : ∀ c, SameResults (body c) (body' c)) :
    SameResults (withCal s body) (withCal s' body') := by
  unfold Machine.withCal
  rw [h.cal, h.calValid]
  split
  · exact hbody _
  · exact h.raise _

theorem SameInputs.withTfine {body body' : Word → Result}
    (hbody : ∀ f, SameResults (body f) (body' f)) :
    SameResults (withTfine s body) (withTfine s' body') := by
  unfold Machine.withTfine
  rw [h.tfine, h.tfineValid]
  split
  · exact hbody _
  · exact h.raise _

theorem SameInputs.compensate (legal : Bool) (y : Cal → Word → Word) :
    SameResults (compensate legal s y) (compensate legal s' y) :=
  h.requireLegal _ (h.withCal fun _ => h.withTfine fun _ => h.finish _)

theorem SameInputs.exec {i : Instr} (hi : isCompensation i) :
    SameResults (exec i s) (exec i s') := by
  cases i with
  | compT =>
    rw [exec_compT_of_running h.running, exec_compT_of_running h.running', h.ix, h.params]
    exact h.requireLegal _ (h.withCal fun _ => h.finish_writeTfine _ _)
  | compP32 =>
    rw [exec_compP32_of_running h.running, exec_compP32_of_running h.running', h.ix]
    exact h.requireBuilt _ (h.compensate _ _)
  | compP64 =>
    rw [exec_compP64_of_running h.running, exec_compP64_of_running h.running', h.ix]
    exact h.requireBuilt _ (h.compensate _ _)
  | compH =>
    rw [exec_compH_of_running h.running, exec_compH_of_running h.running', h.ix]
    exact h.compensate _ _
  | _ => simp [isCompensation] at hi

end

/-! ### Another fine temperature gives another result -/

/-- Coefficients of 0 but for one that brings TFINE into each formula, and what keeps the pressure's
denominator and the humidity's gain from 0. -/
def sensitiveCal : Cal where
  t1 := 0
  t2 := 0
  t3 := 0
  p1 := 1
  p2 := 0
  p3 := 0
  p4 := 0
  p5 := 1
  p6 := 0
  p7 := 0
  p8 := 0
  p9 := 0
  h1 := 0
  h2 := 512
  h3 := 0
  h4 := 0
  h5 := 1
  h6 := 0

/-- The reset state with the sensitive coefficients loaded, TFINE f and IX 0x1000. -/
def compensating (f : Word) : State :=
  { State.reset with
    cal := some sensitiveCal
    calValid := true
    tfine := some f
    tfineValid := true
    ports := { Ports.idle with ix := 0x1000 } }

theorem formulas_depend_on_tfine :
    pressure32 sensitiveCal 0 0x1000 ≠ pressure32 sensitiveCal 0x100000 0x1000 ∧
    pressure64 sensitiveCal 0 0x1000 ≠ pressure64 sensitiveCal 0x100000 0x1000 ∧
    humidity sensitiveCal 0 0x1000 ≠ humidity sensitiveCal 0x100000 0x1000 := by
  decide

theorem exec_compensating (f : Word) :
    exec .compP32 (compensating f) = .next (okEnd (compensating f)
      (y0Only (pressure32 sensitiveCal f 0x1000))) ∧
    exec .compP64 (compensating f) = .next (okEnd (compensating f)
      (y0Only (pressure64 sensitiveCal f 0x1000))) ∧
    exec .compH (compensating f) = .next (okEnd (compensating f)
      (y0Only (humidity sensitiveCal f 0x1000))) :=
  ⟨rfl, rfl, rfl⟩

/-- Settles O18: the checks and the formulas read only the inputs, and at the sensitive coefficients
two fine temperatures give two results. -/
theorem compensationDependsOnlyOnInputs : Obligations.CompensationDependsOnlyOnInputs := by
  refine ⟨fun i s s' t t' hi hix hparams hcal hvalid htfine hfvalid ht ht' => ?_, fun i hi => ?_⟩
  · have hsame : SameInputs s s' :=
      ⟨hix, hparams, hcal, hvalid, htfine, hfvalid, (exec_next ht).1, (exec_next ht').1⟩
    obtain ⟨u, u', hu, hu', hresults⟩ := hsame.exec hi
    cases ht.symm.trans hu
    cases ht'.symm.trans hu'
    exact hresults
  · obtain ⟨hp32, hp64, hh⟩ := exec_compensating 0
    obtain ⟨hp32', hp64', hh'⟩ := exec_compensating 0x100000
    obtain ⟨hne32, hne64, hneh⟩ := formulas_depend_on_tfine
    simp only [List.mem_cons, List.not_mem_nil, or_false] at hi
    obtain rfl | rfl | rfl := hi
    · exact ⟨_, _, _, _, hp32, hp32', rfl, rfl, fun h => hne32 (Option.some.inj h)⟩
    · exact ⟨_, _, _, _, hp64, hp64', rfl, rfl, fun h => hne64 (Option.some.inj h)⟩
    · exact ⟨_, _, _, _, hh, hh', rfl, rfl, fun h => hneh (Option.some.inj h)⟩

end Sys2Proof.Machine
end

section
/-! PROOFS. How the conversion commands end, and the parts of the splits on numbers
(spec/43_conversion.md rules R220 to R224, R231 and R232). -/

namespace Sys2Proof.Machine

open Sys2Proof.Claims

/-! ### The ends of the two kinds of conversion -/

theorem finishSplit_of_running {s : State} (hrun : s.fault = none) (whole frac : Word) :
    finishSplit s whole frac =
      .next (okEnd s { Latches.bottom with y0 := some whole, y1 := some frac }) :=
  accept_of_running hrun _

theorem finishFloat_of_running {s : State} (hrun : s.fault = none) (x : Int) (scale : Nat) :
    finishFloat s x scale = .next (okEnd s { Latches.bottom with
      yf := some (scaledFloat s.params.floatFmt x scale) }) :=
  accept_of_running hrun _

/-- Settles O17: the parts of a split and the operands of a float are computed from IX, rescaled as
the parameters say. -/
theorem conversionIsStateless : Obligations.ConversionIsStateless := by
  intro i s s' hconv hrun hrun' hix hparams
  have hsame : ∃ l, exec i s = .next (okEnd s l) ∧ exec i s' = .next (okEnd s' l) := by
    cases i with
    | splitT | splitP32 =>
      refine ⟨_, finishSplit_of_running hrun _ _, ?_⟩
      rw [hix]
      exact finishSplit_of_running hrun' _ _
    | splitP64 | splitH =>
      refine ⟨_, finishSplit_of_running hrun _ _, ?_⟩
      rw [hix, hparams]
      exact finishSplit_of_running hrun' _ _
    | fltT | fltP32 | fltP64 | fltH =>
      refine ⟨_, finishFloat_of_running hrun _ _, ?_⟩
      rw [hix, hparams]
      exact finishFloat_of_running hrun' _ _
    | _ => simp [isConversion] at hconv
  obtain ⟨l, hend, hend'⟩ := hsame
  exact ⟨l, hend, hend', exec_okLeaves_row i s _ hend rfl⟩

/-! ### The parts on numbers -/

theorem sdiv_hundred_toInt (x : Word) : (x.sdiv 100#32).toInt = x.toInt.tdiv 100 :=
  BitVec.toInt_sdiv_of_ne_or_ne _ _ (.inr (by decide))

theorem srem_hundred_toInt (x : Word) : (x.srem 100#32).toInt = x.toInt.tmod 100 :=
  BitVec.toInt_srem _ _

/-- The default rescaling of a pressure never overflows u32 (R8, R223). -/
theorem p64Rescale_toNat (r : Rescale) (q : Word) :
    (p64Rescale r q).toNat = p64RescaleSpec r q := by
  cases r with
  | exactFloor =>
    have hq := q.isLt
    exact Nat.mod_eq_of_lt (by omega)
  | other n => rfl

/-- The default rescaling of a humidity never overflows u32 (R9, R224). -/
theorem hRescale_toNat (r : Rescale) (h : Word) : (hRescale r h).toNat = hRescaleSpec r h := by
  cases r with
  | exactFloor =>
    have hh := h.isLt
    exact Nat.mod_eq_of_lt (by omega)
  | other n => rfl

theorem splitP64_whole_toNat (x : Word) : (x / 10000#32).toNat = x.toNat / 10000 :=
  BitVec.toNat_udiv

theorem splitP64_frac_toNat (x : Word) : (x % 10000#32 / 10#32).toNat = x.toNat % 10000 / 10 := by
  simp

/-- Settles O41: no s32 divided by 100 overflows, and the remainder is the truncated one (R17). -/
theorem splitTResult : Obligations.SplitTResult :=
  ⟨rfl, fun _ hrun => ⟨_, _, finishSplit_of_running hrun _ _, sdiv_hundred_toInt _,
    srem_hundred_toInt _⟩⟩

/-- Settles O42: division on u32 is division on numbers. -/
theorem splitP32Result : Obligations.SplitP32Result :=
  ⟨rfl, fun _ hrun => ⟨_, _, finishSplit_of_running hrun _ _, BitVec.toNat_udiv,
    BitVec.toNat_umod⟩⟩

/-- Settles O43: the split of a u32, of the rescaled pressure. -/
theorem splitP64Result : Obligations.SplitP64Result := by
  refine ⟨rfl, fun s hrun => ⟨_, _, finishSplit_of_running hrun _ _, ?_⟩⟩
  rw [← p64Rescale_toNat]
  exact ⟨splitP64_whole_toNat _, splitP64_frac_toNat _⟩

/-- Settles O44: the split of a u32, of the rescaled humidity. -/
theorem splitHResult : Obligations.SplitHResult := by
  refine ⟨rfl, fun s hrun => ⟨_, _, finishSplit_of_running hrun _ _, ?_⟩⟩
  rw [← hRescale_toNat]
  exact ⟨BitVec.toNat_udiv, BitVec.toNat_umod⟩

/-! ### The laws of the splits -/

section
variable {s t : State} {a b y : Word}

theorem finishSplit_y0 (h : finishSplit s a b = .next t) (hy : t.latch.y0 = some y) : y = a := by
  obtain ⟨-, rfl⟩ := finishSplit_next h
  exact (Option.some.inj hy).symm

theorem finishSplit_y1 (h : finishSplit s a b = .next t) (hy : t.latch.y1 = some y) : y = b := by
  obtain ⟨-, rfl⟩ := finishSplit_next h
  exact (Option.some.inj hy).symm

end

/-- Settles O45: the parts are a quotient and its remainder, and the digit that SPLIT_P64 drops is
the remainder's last. -/
theorem splitReconstructs : Obligations.SplitReconstructs := by
  intro s t y0 y1 hy0 hy1
  refine ⟨fun h => ?_, fun h => ?_, fun h => ?_, fun h => ?_⟩
  · rw [finishSplit_y0 h hy0, finishSplit_y1 h hy1, sdiv_hundred_toInt, srem_hundred_toInt]
    exact Int.tdiv_mul_add_tmod _ _
  · rw [finishSplit_y0 h hy0, finishSplit_y1 h hy1]
    exact Nat.div_add_mod' _ 100
  · rw [finishSplit_y0 h hy0, finishSplit_y1 h hy1, ← hRescale_toNat]
    exact Nat.div_add_mod' _ 1000
  · rw [finishSplit_y0 h hy0, finishSplit_y1 h hy1, ← p64Rescale_toNat, splitP64_whole_toNat,
      splitP64_frac_toNat]
    omega

/-- Rounding toward zero leaves a remainder of the dividend's sign (R17). -/
theorem pos_of_tmod_pos {a b : Int} (h : 0 < a.tmod b) : 0 < a := by
  by_contra ha
  have hneg : 0 ≤ (-a).tmod b := Int.tmod_nonneg b (by omega)
  rw [Int.neg_tmod] at hneg
  omega

theorem neg_of_tmod_neg {a b : Int} (h : a.tmod b < 0) : a < 0 := by
  by_contra ha
  have hnonneg : 0 ≤ a.tmod b := Int.tmod_nonneg b (by omega)
  omega

/-- Settles O46: a remainder is smaller than its divisor, and that of SPLIT_T is the truncated
one. -/
theorem splitFractionRanges : Obligations.SplitFractionRanges := by
  intro s t y1 hy1
  refine ⟨fun h => ?_, fun h => ?_, fun h => ?_, fun h => ?_⟩
  · rw [finishSplit_y1 h hy1, srem_hundred_toInt]
    have hlow := Int.lt_tmod_of_pos s.ports.ix.toInt (b := 100) (by norm_num)
    have hhigh := Int.tmod_lt_of_pos s.ports.ix.toInt (b := 100) (by norm_num)
    exact ⟨by omega, by omega, pos_of_tmod_pos, neg_of_tmod_neg⟩
  · rw [finishSplit_y1 h hy1]
    exact Nat.lt_succ_iff.mp (Nat.mod_lt _ (by norm_num))
  · rw [finishSplit_y1 h hy1, splitP64_frac_toNat]
    omega
  · rw [finishSplit_y1 h hy1]
    exact Nat.lt_succ_iff.mp (Nat.mod_lt _ (by norm_num))

end Sys2Proof.Machine
end

section
/-! PROOFS. The values of finite magnitudes (spec/00_scope.md rule R10): a magnitude is so many
units of its binade, so the values grow with the bits. -/

namespace Sys2Proof.Machine

open Sys2Proof.Claims

/-- The unit of the last place in a binade: E is the exponent field less one, and 0 for the
subnormal numbers too. -/
def ulp (fmt : FloatFmt) (E : Nat) : ℚ := 2 ^ ((E : ℤ) + 1 - floatBias fmt - fracBits fmt)

theorem ulp_pos (fmt : FloatFmt) (E : Nat) : 0 < ulp fmt E := by
  unfold ulp
  positivity

theorem ulp_succ (fmt : FloatFmt) (E : Nat) : ulp fmt (E + 1) = 2 * ulp fmt E := by
  unfold ulp
  rw [← zpow_one_add₀ two_ne_zero]
  congr 1
  push_cast
  ring

theorem ulp_add (fmt : FloatFmt) (E j : Nat) : ulp fmt (E + j) = 2 ^ j * ulp fmt E := by
  induction j with
  | zero => simp
  | succ j ih => rw [← add_assoc, ulp_succ, ih, pow_succ']; ring

theorem infinityMag_eq (fmt : FloatFmt) :
    infinityMag fmt = (2 * floatBias fmt + 1) * 2 ^ fracBits fmt := by
  cases fmt <;> rfl

theorem infinityMag_pos (fmt : FloatFmt) : 0 < infinityMag fmt := by
  cases fmt <;> decide

/-- Both formats read their bits by the same rule. -/
theorem magValue_eq (fmt : FloatFmt) (mag : Nat) :
    magValue fmt mag = if mag / 2 ^ fracBits fmt = 0
      then mag * (2 : ℚ) ^ (1 - floatBias fmt - fracBits fmt : ℤ)
      else (2 ^ fracBits fmt + (mag % 2 ^ fracBits fmt : Nat)) *
        (2 : ℚ) ^ ((mag / 2 ^ fracBits fmt : Nat) - (floatBias fmt + fracBits fmt) : ℤ) := by
  cases fmt <;> rfl

theorem magValue_subnormal {fmt : FloatFmt} {mag : Nat} (h : mag / 2 ^ fracBits fmt = 0) :
    magValue fmt mag = mag * ulp fmt 0 := by
  rw [magValue_eq, if_pos h, ulp, Nat.cast_zero, zero_add]

theorem magValue_zero (fmt : FloatFmt) : magValue fmt 0 = 0 := by
  rw [magValue_subnormal (Nat.zero_div _), Nat.cast_zero, zero_mul]

theorem magValue_normal {fmt : FloatFmt} {mag E : Nat} (h : mag / 2 ^ fracBits fmt = E + 1) :
    magValue fmt mag = (2 ^ fracBits fmt + (mag % 2 ^ fracBits fmt : Nat)) * ulp fmt E := by
  rw [magValue_eq, h, if_neg (Nat.succ_ne_zero E), ulp, Nat.cast_succ, sub_sub]

/-- The bits E * 2^fracBits + m stand for m units of the binade E. A significand m of
2 * 2^fracBits carries into the next binade and stands for the same value. -/
theorem magValue_eq_mul_ulp {fmt : FloatFmt} {E m : Nat} (hm : m ≤ 2 * 2 ^ fracBits fmt)
    (hE : E = 0 ∨ 2 ^ fracBits fmt ≤ m) :
    magValue fmt (E * 2 ^ fracBits fmt + m) = m * ulp fmt E := by
  have hpos : 0 < 2 ^ fracBits fmt := by positivity
  obtain hsub | hnorm := lt_or_ge m (2 ^ fracBits fmt)
  · obtain rfl : E = 0 := hE.resolve_right (by omega)
    rw [zero_mul, zero_add, magValue_subnormal (Nat.div_eq_of_lt hsub)]
  obtain ⟨f, rfl⟩ := Nat.exists_eq_add_of_le hnorm
  have hsplit : E * 2 ^ fracBits fmt + (2 ^ fracBits fmt + f) = f + (E + 1) * 2 ^ fracBits fmt := by
    ring
  rw [hsplit]
  obtain hlt | heq := lt_or_eq_of_le (show f ≤ 2 ^ fracBits fmt by omega)
  · rw [magValue_normal (E := E)
      (by rw [Nat.add_mul_div_right _ _ hpos, Nat.div_eq_of_lt hlt, zero_add]),
      Nat.add_mul_mod_self_right, Nat.mod_eq_of_lt hlt]
    push_cast
    rfl
  · rw [heq, magValue_normal (E := E + 1)
      (by rw [Nat.add_mul_div_right _ _ hpos, Nat.div_self hpos]; omega),
      Nat.add_mul_mod_self_right, Nat.mod_self, ulp_succ]
    push_cast
    ring

/-- Every magnitude has a binade and a significand in it. -/
theorem exists_binade (fmt : FloatFmt) (mag : Nat) :
    ∃ E m, mag = E * 2 ^ fracBits fmt + m ∧ m < 2 * 2 ^ fracBits fmt ∧
      (E = 0 ∨ 2 ^ fracBits fmt ≤ m) := by
  have hpos : 0 < 2 ^ fracBits fmt := by positivity
  have hmod := Nat.mod_lt mag hpos
  have hdiv := Nat.div_add_mod' mag (2 ^ fracBits fmt)
  cases hE : mag / 2 ^ fracBits fmt with
  | zero => exact ⟨0, mag, by omega, by rw [hE] at hdiv; omega, .inl rfl⟩
  | succ E =>
    rw [hE] at hdiv
    exact ⟨E, 2 ^ fracBits fmt + mag % 2 ^ fracBits fmt, by linarith, by omega, .inr (by omega)⟩

/-- The next magnitude is one more unit of the same binade. -/
theorem magValue_strictMono (fmt : FloatFmt) : StrictMono (magValue fmt) := by
  refine strictMono_nat_of_lt_succ fun mag => ?_
  obtain ⟨E, m, rfl, hm, hE⟩ := exists_binade fmt mag
  rw [add_assoc, magValue_eq_mul_ulp hm.le hE,
    magValue_eq_mul_ulp (show m + 1 ≤ _ by omega) (hE.imp id fun h => by omega)]
  exact mul_lt_mul_of_pos_right (by norm_num) (ulp_pos fmt E)

/-- A magnitude in the binade E or above it is a whole number of units of E. -/
theorem exists_magValue_eq_mul_ulp {fmt : FloatFmt} {E mag : Nat}
    (h : E = 0 ∨ E * 2 ^ fracBits fmt + 2 ^ fracBits fmt ≤ mag) :
    ∃ k : Nat, magValue fmt mag = k * ulp fmt E := by
  obtain ⟨E', m, rfl, hm, hE'⟩ := exists_binade fmt mag
  have hle : E ≤ E' := by
    by_contra hlt
    have hmul : (E' + 1) * 2 ^ fracBits fmt ≤ E * 2 ^ fracBits fmt :=
      Nat.mul_le_mul_right _ (by omega)
    rw [add_one_mul] at hmul
    omega
  obtain ⟨j, rfl⟩ := Nat.exists_eq_add_of_le hle
  refine ⟨m * 2 ^ j, ?_⟩
  rw [magValue_eq_mul_ulp hm.le hE', ulp_add]
  push_cast
  ring

end Sys2Proof.Machine
end

section
/-! PROOFS. Rounding to nearest even (spec/43_conversion.md rule R226): within half a unit of its
binade, and even at half a unit, is nearest among all finite magnitudes. -/

namespace Sys2Proof.Machine

open Sys2Proof.Claims

/-! ### Half a unit is nearest -/

section
variable {u q : ℚ} {m : Nat}

/-- Another whole number of units is at least half a unit away. -/
theorem half_le_abs_sub_of_ne {k : Nat} (hu : 0 < u) (hhalf : |m * u - q| ≤ u / 2) (hkm : k ≠ m) :
    u / 2 ≤ |k * u - q| := by
  have hone : (1 : ℚ) ≤ |(k : ℚ) - m| := by
    exact_mod_cast Int.one_le_abs (sub_ne_zero.mpr (Nat.cast_injective.ne hkm))
  have hapart : u ≤ |k * u - m * u| := by
    rw [← sub_mul, abs_mul, abs_of_pos hu]
    exact le_mul_of_one_le_left hu.le hone
  have htriangle := abs_sub_le (k * u) q (m * u)
  rw [abs_sub_comm q] at htriangle
  linarith

/-- What lies below p units is farther from q than m units are, when p units are at most both. -/
theorem abs_sub_lt_of_below {v : ℚ} {p : Nat} (hu : 0 < u) (hhalf : |m * u - q| ≤ u / 2)
    (hpm : p ≤ m) (hpq : p * u ≤ q) (hv : v < p * u) : |m * u - q| < |v - q| := by
  have hdist : |m * u - q| ≤ q - p * u := by
    obtain rfl | hgt := eq_or_lt_of_le hpm
    · rw [abs_sub_comm, abs_of_nonneg (sub_nonneg.mpr hpq)]
    · have hnext : (p + 1) * u ≤ m * u :=
        mul_le_mul_of_nonneg_right (by exact_mod_cast hgt) hu.le
      linarith [(abs_le.mp hhalf).2]
  rw [abs_sub_comm v, abs_of_nonneg (a := q - v) (by linarith)]
  linarith

end

/-- m units of the binade E, half a unit or less from q: a float of that binade or above is another
whole number of units, and one below lies beyond the least float of the binade. -/
theorem nearestEven_of_half_ulp {fmt : FloatFmt} {E m : Nat} {q : ℚ}
    (hm : m ≤ 2 * 2 ^ fracBits fmt)
    (hE : E = 0 ∨ 2 ^ fracBits fmt ≤ m ∧ 2 ^ fracBits fmt * ulp fmt E ≤ q)
    (hfinite : E * 2 ^ fracBits fmt + m < infinityMag fmt)
    (hhalf : |m * ulp fmt E - q| ≤ ulp fmt E / 2)
    (heven : |m * ulp fmt E - q| = ulp fmt E / 2 → m % 2 = 0) :
    NearestEven fmt q (E * 2 ^ fracBits fmt + m) := by
  have hu := ulp_pos fmt E
  have hvalue := magValue_eq_mul_ulp hm (hE.imp id And.left)
  have hparity : (E * 2 ^ fracBits fmt + m) % 2 = m % 2 := by
    cases fmt <;> simp only [fracBits] <;> omega
  refine ⟨hfinite, fun other _ => ?_⟩
  rw [hparity, hvalue]
  by_cases hbinade : E = 0 ∨ E * 2 ^ fracBits fmt + 2 ^ fracBits fmt ≤ other
  · obtain ⟨k, hk⟩ := exists_magValue_eq_mul_ulp hbinade
    rw [hk]
    by_cases hkm : k = m
    · have hother : other = E * 2 ^ fracBits fmt + m :=
        (magValue_strictMono fmt).injective (by rw [hk, hvalue, hkm])
      rw [hkm]
      exact ⟨le_rfl, fun _ => .inl hother⟩
    · have hfar := half_le_abs_sub_of_ne hu hhalf hkm
      exact ⟨hhalf.trans hfar, fun htie => .inr (heven (hhalf.antisymm (htie ▸ hfar)))⟩
  · rw [not_or, not_le] at hbinade
    obtain ⟨hpos, hbelow⟩ := hbinade
    obtain ⟨hnormal, hq⟩ := hE.resolve_left hpos
    have hleast := magValue_strictMono fmt hbelow
    rw [magValue_eq_mul_ulp (by omega) (.inr le_rfl)] at hleast
    have hfar := abs_sub_lt_of_below hu hhalf hnormal (by exact_mod_cast hq) hleast
    exact ⟨hfar.le, fun htie => absurd htie hfar.ne⟩

/-! ### The rounded integer quotient -/

theorem divNearestEven_cases (n d : Nat) :
    (divNearestEven n d = n / d ∧ 2 * (n % d) ≤ d ∧
      (2 * (n % d) = d → divNearestEven n d % 2 = 0)) ∨
    (divNearestEven n d = n / d + 1 ∧ d ≤ 2 * (n % d) ∧
      (2 * (n % d) = d → divNearestEven n d % 2 = 0)) := by
  simp only [divNearestEven]
  split_ifs <;> omega

/-- The rounded quotient is half a unit or less away, and even when it is half a unit away. -/
theorem divNearestEven_half {n d : Nat} (hd : 0 < d) :
    |(divNearestEven n d : ℚ) - n / d| ≤ 1 / 2 ∧
    (|(divNearestEven n d : ℚ) - n / d| = 1 / 2 → divNearestEven n d % 2 = 0) := by
  have hdq : (0 : ℚ) < d := by exact_mod_cast hd
  have hquot : (n : ℚ) / d = (n / d : Nat) + (n % d : Nat) / d := by
    rw [eq_comm, eq_div_iff hdq.ne', add_mul, div_mul_cancel₀ _ hdq.ne']
    exact_mod_cast Nat.div_add_mod' n d
  have hnonneg : (0 : ℚ) ≤ (n % d : Nat) / d := by positivity
  have hlt : ((n % d : Nat) : ℚ) / d < 1 := by
    rw [div_lt_one hdq]
    exact_mod_cast Nat.mod_lt n hd
  obtain ⟨hm, hle, htie⟩ | ⟨hm, hge, htie⟩ := divNearestEven_cases n d
  · have hr : ((n % d : Nat) : ℚ) / d ≤ 1 / 2 := by
      rw [div_le_div_iff₀ hdq two_pos]
      exact_mod_cast (by omega : n % d * 2 ≤ 1 * d)
    have habs : |(divNearestEven n d : ℚ) - n / d| = (n % d : Nat) / d := by
      rw [hquot, hm, sub_add_cancel_left, abs_neg, abs_of_nonneg hnonneg]
    rw [habs]
    refine ⟨hr, fun heq => htie ?_⟩
    rw [div_eq_div_iff hdq.ne' two_ne_zero] at heq
    have heq' : n % d * 2 = 1 * d := by exact_mod_cast heq
    omega
  · have hr : 1 / 2 ≤ ((n % d : Nat) : ℚ) / d := by
      rw [div_le_div_iff₀ two_pos hdq]
      exact_mod_cast (by omega : 1 * d ≤ n % d * 2)
    have habs : |(divNearestEven n d : ℚ) - n / d| = 1 - (n % d : Nat) / d := by
      rw [hquot, hm]
      push_cast
      rw [add_sub_add_left_eq_sub, abs_of_nonneg (by linarith)]
    rw [habs]
    refine ⟨by linarith, fun heq => htie ?_⟩
    have heq' : ((n % d : Nat) : ℚ) / d = 1 / 2 := by linarith
    rw [div_eq_div_iff hdq.ne' two_ne_zero] at heq'
    have heq'' : n % d * 2 = 1 * d := by exact_mod_cast heq'
    omega

/-! ### The binade of a quotient -/

theorem ratioExponent_bounds {n d : Nat} (hn : n ≠ 0) (hd : 0 < d) :
    (2 : ℚ) ^ ratioExponent n d ≤ n / d ∧ (n : ℚ) / d < 2 ^ (ratioExponent n d + 1) := by
  have hdq : (0 : ℚ) < d := by exact_mod_cast hd
  have hnlow : (2 : ℚ) ^ Nat.log2 n ≤ n := by exact_mod_cast Nat.log2_self_le hn
  have hnhigh : (n : ℚ) < 2 ^ Nat.log2 n * 2 := by
    rw [← pow_succ]
    exact_mod_cast Nat.lt_log2_self
  have hdlow : (2 : ℚ) ^ Nat.log2 d ≤ d := by exact_mod_cast Nat.log2_self_le hd.ne'
  have hdhigh : (d : ℚ) < 2 ^ Nat.log2 d * 2 := by
    rw [← pow_succ]
    exact_mod_cast Nat.lt_log2_self
  have hA : (0 : ℚ) < 2 ^ Nat.log2 n := by positivity
  have hB : (0 : ℚ) < 2 ^ Nat.log2 d := by positivity
  simp only [ratioExponent]
  split
  next h =>
    have hq : (n : ℚ) * 2 ^ Nat.log2 d < d * 2 ^ Nat.log2 n := by exact_mod_cast h
    rw [sub_add_cancel, zpow_sub₀ two_ne_zero, zpow_sub₀ two_ne_zero, zpow_natCast, zpow_natCast,
      zpow_one, div_div, div_le_div_iff₀ (by positivity) hdq, div_lt_div_iff₀ hdq hB,
      mul_comm (2 ^ Nat.log2 n) (d : ℚ)]
    refine ⟨?_, hq⟩
    rw [mul_comm]
    exact mul_le_mul hnlow hdhigh.le hdq.le (Nat.cast_nonneg n)
  next h =>
    have hq : (d : ℚ) * 2 ^ Nat.log2 n ≤ n * 2 ^ Nat.log2 d := by exact_mod_cast not_lt.mp h
    rw [zpow_add_one₀ two_ne_zero, zpow_sub₀ two_ne_zero, zpow_natCast, zpow_natCast,
      div_mul_eq_mul_div, div_le_div_iff₀ hB hdq, div_lt_div_iff₀ hdq hB,
      mul_comm (2 ^ Nat.log2 n) (d : ℚ)]
    exact ⟨hq, mul_lt_mul hnhigh hdlow hB (by positivity)⟩

end Sys2Proof.Machine
end

section
/-! PROOFS. Every rounding of the model is to nearest even (spec/43_conversion.md rule R226), unless
it overflows the format. -/

namespace Sys2Proof.Machine

open Sys2Proof.Claims

/-! ### The binade and the significand of a rounded quotient -/

/-- The exponent of n / d, that of the least normal number if n / d is below it. -/
def binadeExponent (fmt : FloatFmt) (n d : Nat) : Int :=
  max (ratioExponent n d) (1 - (floatBias fmt : Int))

/-- The binade of n / d. -/
def ratioBinade (fmt : FloatFmt) (n d : Nat) : Nat :=
  (binadeExponent fmt n d + floatBias fmt - 1).toNat

/-- n / d in units 2^shift, rounded to nearest even. -/
def divScaled (n d : Nat) (shift : Int) : Nat :=
  divNearestEven (n * 2 ^ (-shift).toNat) (d * 2 ^ shift.toNat)

/-- n / d in units of its binade, rounded to nearest even. -/
def ratioSignificand (fmt : FloatFmt) (n d : Nat) : Nat :=
  divScaled n d (binadeExponent fmt n d - fracBits fmt)

theorem roundRatio_zero (fmt : FloatFmt) (d : Nat) : roundRatio fmt 0 d = 0 := rfl

theorem roundRatio_eq_min {fmt : FloatFmt} {n d : Nat} (hn : n ≠ 0) :
    roundRatio fmt n d = min (ratioBinade fmt n d * 2 ^ fracBits fmt + ratioSignificand fmt n d)
      (infinityMag fmt) := by
  rw [infinityMag_eq, roundRatio, if_neg hn]
  rfl

section
variable {n d : Nat}

theorem divScaled_half (hd : 0 < d) (shift : Int) :
    |(divScaled n d shift : ℚ) * 2 ^ shift - n / d| ≤ 2 ^ shift / 2 ∧
    (|(divScaled n d shift : ℚ) * 2 ^ shift - n / d| = 2 ^ shift / 2 →
      divScaled n d shift % 2 = 0) := by
  have hu : (0 : ℚ) < 2 ^ shift := by positivity
  have hscaled : ((n * 2 ^ (-shift).toNat : Nat) : ℚ) / (d * 2 ^ shift.toNat : Nat) =
      n / d / 2 ^ shift := by
    obtain ⟨k, rfl | rfl⟩ := shift.eq_nat_or_neg
    · simp [div_div]
    · simp [div_mul_eq_mul_div]
  have hunits : |(divScaled n d shift : ℚ) * 2 ^ shift - n / d| =
      |(divScaled n d shift : ℚ) - n / d / 2 ^ shift| * 2 ^ shift := by
    rw [← abs_of_pos hu, ← abs_mul, abs_of_pos hu, sub_mul, div_mul_cancel₀ _ hu.ne']
  obtain ⟨hhalf, heven⟩ := divNearestEven_half (n := n * 2 ^ (-shift).toNat)
    (Nat.mul_pos hd (Nat.two_pow_pos shift.toNat))
  rw [hscaled] at hhalf heven
  rw [hunits, ← one_div_mul_eq_div 2]
  exact ⟨mul_le_mul_of_nonneg_right hhalf hu.le,
    fun htie => heven (mul_right_cancel₀ hu.ne' htie)⟩

theorem ratioBinade_cast (fmt : FloatFmt) (n d : Nat) :
    (ratioBinade fmt n d : ℤ) = binadeExponent fmt n d + floatBias fmt - 1 :=
  Int.toNat_of_nonneg (by rw [binadeExponent]; omega)

theorem ulp_ratioBinade (fmt : FloatFmt) (n d : Nat) :
    ulp fmt (ratioBinade fmt n d) = 2 ^ (binadeExponent fmt n d - fracBits fmt) := by
  rw [ulp, ratioBinade_cast]
  congr 1
  ring

theorem fracBits_mul_ulp_ratioBinade (fmt : FloatFmt) (n d : Nat) :
    2 ^ fracBits fmt * ulp fmt (ratioBinade fmt n d) = 2 ^ binadeExponent fmt n d := by
  rw [ulp_ratioBinade, ← zpow_natCast, ← zpow_add₀ two_ne_zero, add_sub_cancel]

theorem ratioSignificand_half (fmt : FloatFmt) (hd : 0 < d) :
    |ratioSignificand fmt n d * ulp fmt (ratioBinade fmt n d) - n / d| ≤
      ulp fmt (ratioBinade fmt n d) / 2 ∧
    (|ratioSignificand fmt n d * ulp fmt (ratioBinade fmt n d) - n / d| =
      ulp fmt (ratioBinade fmt n d) / 2 → ratioSignificand fmt n d % 2 = 0) := by
  rw [ulp_ratioBinade]
  exact divScaled_half hd _

theorem ratio_lt_binade_end (fmt : FloatFmt) (hn : n ≠ 0) (hd : 0 < d) :
    (n : ℚ) / d < 2 * 2 ^ fracBits fmt * ulp fmt (ratioBinade fmt n d) := by
  rw [mul_assoc, fracBits_mul_ulp_ratioBinade, ← zpow_one_add₀ two_ne_zero, add_comm]
  exact (ratioExponent_bounds hn hd).2.trans_le
    (zpow_le_zpow_right₀ one_le_two (by rw [binadeExponent]; omega))

theorem binade_start_le_ratio (fmt : FloatFmt) (hn : n ≠ 0) (hd : 0 < d) :
    ratioBinade fmt n d = 0 ∨
      2 ^ fracBits fmt * ulp fmt (ratioBinade fmt n d) ≤ (n : ℚ) / d := by
  rw [fracBits_mul_ulp_ratioBinade]
  obtain hsub | hnorm := le_total (ratioExponent n d) (1 - (floatBias fmt : Int))
  · exact .inl (by rw [ratioBinade, binadeExponent, max_eq_right hsub]; omega)
  · rw [binadeExponent, max_eq_left hnorm]
    exact .inr (ratioExponent_bounds hn hd).1

theorem ratioSignificand_le (fmt : FloatFmt) (hn : n ≠ 0) (hd : 0 < d) :
    ratioSignificand fmt n d ≤ 2 * 2 ^ fracBits fmt := by
  have hu := ulp_pos fmt (ratioBinade fmt n d)
  have hhalf := (abs_le.mp (ratioSignificand_half (n := n) fmt hd).1).2
  have hend := ratio_lt_binade_end fmt hn hd
  have hlt : (ratioSignificand fmt n d : ℚ) < 2 * 2 ^ fracBits fmt + 1 :=
    lt_of_mul_lt_mul_right (by linarith) hu.le
  exact Nat.lt_succ_iff.mp (by exact_mod_cast hlt)

theorem le_ratioSignificand (fmt : FloatFmt) (hd : 0 < d)
    (hstart : 2 ^ fracBits fmt * ulp fmt (ratioBinade fmt n d) ≤ (n : ℚ) / d) :
    2 ^ fracBits fmt ≤ ratioSignificand fmt n d := by
  have hu := ulp_pos fmt (ratioBinade fmt n d)
  have hhalf := (abs_le.mp (ratioSignificand_half (n := n) fmt hd).1).1
  have hlt : (2 : ℚ) ^ fracBits fmt < ratioSignificand fmt n d + 1 :=
    lt_of_mul_lt_mul_right (by linarith) hu.le
  exact Nat.lt_succ_iff.mp (by exact_mod_cast hlt)

theorem ratioBinade_lt (fmt : FloatFmt) (hn : n ≠ 0) (hd : 0 < d)
    (hsmall : (n : ℚ) / d < 2 ^ floatBias fmt) :
    ratioBinade fmt n d + 1 < 2 * floatBias fmt := by
  have hbias : 0 < floatBias fmt := by cases fmt <;> decide
  have hpow : (2 : ℚ) ^ ratioExponent n d < 2 ^ (floatBias fmt : ℤ) := by
    rw [zpow_natCast]
    exact (ratioExponent_bounds hn hd).1.trans_lt hsmall
  have hexp := (zpow_lt_zpow_iff_right₀ one_lt_two).mp hpow
  have hcast := ratioBinade_cast fmt n d
  rw [binadeExponent] at hcast
  omega

/-! ### Rounding is to nearest even -/

theorem roundRatio_eq {fmt : FloatFmt} (hn : n ≠ 0) (hd : 0 < d)
    (hsmall : (n : ℚ) / d < 2 ^ floatBias fmt) :
    roundRatio fmt n d = ratioBinade fmt n d * 2 ^ fracBits fmt + ratioSignificand fmt n d ∧
      roundRatio fmt n d < infinityMag fmt := by
  have hfinite : ratioBinade fmt n d * 2 ^ fracBits fmt + ratioSignificand fmt n d <
      infinityMag fmt := by
    have hm := ratioSignificand_le fmt hn hd
    have hE := ratioBinade_lt fmt hn hd hsmall
    have hmul : (ratioBinade fmt n d + 2) * 2 ^ fracBits fmt ≤
        2 * floatBias fmt * 2 ^ fracBits fmt := Nat.mul_le_mul_right _ (by omega)
    rw [infinityMag_eq, add_one_mul]
    linarith [Nat.two_pow_pos (fracBits fmt)]
  rw [roundRatio_eq_min hn, min_eq_left hfinite.le]
  exact ⟨rfl, hfinite⟩

/-- A quotient below 2^bias, which no rounding takes to infinity, is rounded to nearest even. -/
theorem roundRatio_nearestEven {fmt : FloatFmt} (hd : 0 < d)
    (hsmall : (n : ℚ) / d < 2 ^ floatBias fmt) :
    NearestEven fmt (n / d) (roundRatio fmt n d) := by
  obtain rfl | hn := eq_or_ne n 0
  · rw [roundRatio_zero, Nat.cast_zero, zero_div]
    refine ⟨infinityMag_pos fmt, fun other _ => ⟨?_, fun _ => .inr rfl⟩⟩
    simp [magValue_zero]
  obtain ⟨heq, hfinite⟩ := roundRatio_eq hn hd hsmall
  obtain ⟨hhalf, heven⟩ := ratioSignificand_half (n := n) fmt hd
  rw [heq] at hfinite ⊢
  exact nearestEven_of_half_ulp (ratioSignificand_le fmt hn hd)
    ((binade_start_le_ratio fmt hn hd).imp id fun h => ⟨le_ratioSignificand fmt hd h, h⟩)
    hfinite hhalf heven

end

end Sys2Proof.Machine
end

section
/-! PROOFS. The FLT_* commands (spec/43_conversion.md rules R225 to R230): two roundings to nearest
even, of the operand and of the quotient by the scale. -/

namespace Sys2Proof.Machine

open Sys2Proof.Claims

/-! ### What each command divides -/

/-- Settles O47: the operand is IX as the quantity's type says, rescaled where R225 says so. -/
theorem floatCommandResult : Obligations.FloatCommandResult := by
  intro i s x scale hrun hoperands
  cases i with
  | fltT | fltP32 =>
    cases hoperands
    exact finishFloat_of_running hrun _ _
  | fltP64 =>
    cases hoperands
    rw [← p64Rescale_toNat]
    exact finishFloat_of_running hrun _ _
  | fltH =>
    cases hoperands
    rw [← hRescale_toNat]
    exact finishFloat_of_running hrun _ _
  | _ => cases hoperands

theorem floatOperands_bounds {s : State} {i : Instr} {x : Int} {scale : Nat}
    (h : floatOperands s i = some (x, scale)) :
    x.natAbs < 2 ^ 32 ∧ 0 < scale ∧ scale ≤ 10000 := by
  cases i with
  | fltT =>
    cases h
    have hlow := BitVec.le_toInt s.ports.ix
    have hhigh := BitVec.toInt_lt (x := s.ports.ix)
    norm_num at hlow hhigh ⊢
    omega
  | fltP32 =>
    cases h
    exact ⟨s.ports.ix.isLt, by norm_num, by norm_num⟩
  | fltP64 =>
    cases h
    rw [← p64Rescale_toNat]
    exact ⟨BitVec.isLt _, by norm_num, by norm_num⟩
  | fltH =>
    cases h
    rw [← hRescale_toNat]
    exact ⟨BitVec.isLt _, by norm_num, by norm_num⟩
  | _ => cases h

/-! ### The two roundings -/

theorem two_pow_lt_floatRange (fmt : FloatFmt) : (2 : ℚ) ^ 33 < 2 ^ floatBias fmt := by
  cases fmt <;> exact pow_lt_pow_right₀ one_lt_two (by decide)

theorem intMag_nearestEven (fmt : FloatFmt) {n : Nat} (hn : n < 2 ^ 32) :
    NearestEven fmt n (intMag fmt n) := by
  have hsmall : (n : ℚ) / (1 : Nat) < 2 ^ floatBias fmt := by
    have hn' : (n : ℚ) < 2 ^ 32 := by exact_mod_cast hn
    rw [Nat.cast_one, div_one]
    linarith [two_pow_lt_floatRange fmt]
  simpa [intMag] using roundRatio_nearestEven one_pos hsmall

theorem magValue_nonneg (fmt : FloatFmt) (mag : Nat) : 0 ≤ magValue fmt mag := by
  rw [← magValue_zero fmt]
  exact (magValue_strictMono fmt).monotone (Nat.zero_le mag)

/-- Rounding to nearest no more than doubles: 0 is a float too. -/
theorem magValue_le_two_mul {fmt : FloatFmt} {q : ℚ} {mag : Nat} (hq : 0 ≤ q)
    (h : NearestEven fmt q mag) : magValue fmt mag ≤ 2 * q := by
  have hzero := (h.2 0 (infinityMag_pos fmt)).1
  rw [magValue_zero, zero_sub, abs_neg, abs_of_nonneg hq] at hzero
  linarith [le_abs_self (magValue fmt mag - q)]

/-- A value that is some float's is rounded to itself. -/
theorem magValue_eq_of_nearestEven {fmt : FloatFmt} {mag other : Nat}
    (h : NearestEven fmt (magValue fmt other) mag) (hother : other < infinityMag fmt) :
    magValue fmt mag = magValue fmt other := by
  have hle := (h.2 other hother).1
  rw [sub_self, abs_zero] at hle
  exact sub_eq_zero.mp (abs_nonpos_iff.mp hle)

theorem magDen_pos (fmt : FloatFmt) (mag : Nat) : 0 < magDen fmt mag := by
  simp only [magDen]
  split <;> positivity

/-- The numerator and the denominator that ÷f takes from a magnitude are those of its value. -/
theorem magNum_div_magDen (fmt : FloatFmt) (mag : Nat) :
    (magNum fmt mag : ℚ) / magDen fmt mag = magValue fmt mag := by
  cases hE : mag / 2 ^ fracBits fmt with
  | zero =>
    have hmod : mag % 2 ^ fracBits fmt = mag :=
      Nat.mod_eq_of_lt (Nat.lt_of_div_eq_zero (by positivity) hE)
    have hexp : ulp fmt 0 = (2 ^ (floatBias fmt - 1 + fracBits fmt) : ℚ)⁻¹ := by
      rw [ulp, ← zpow_natCast, ← zpow_neg]
      cases fmt <;> rfl
    simp only [magNum, magDen, hE, if_true, hmod, magValue_subnormal hE, hexp]
    push_cast
    rfl
  | succ E =>
    have hexp : ulp fmt E = 2 ^ (E + 1 - (floatBias fmt + fracBits fmt)) /
        2 ^ (floatBias fmt + fracBits fmt - (E + 1)) := by
      rw [ulp, ← zpow_natCast, ← zpow_natCast, ← zpow_sub₀ two_ne_zero]
      congr 1
      omega
    simp only [magNum, magDen, hE, Nat.succ_ne_zero, if_false, magValue_normal hE, hexp]
    push_cast
    ring

theorem divMag_nearestEven {fmt : FloatFmt} {a b : Nat} (hb : 0 < magValue fmt b)
    (hsmall : magValue fmt a / magValue fmt b < 2 ^ floatBias fmt) :
    NearestEven fmt (magValue fmt a / magValue fmt b) (divMag fmt a b) := by
  have hnum : 0 < magNum fmt b := by
    rw [← magNum_div_magDen] at hb
    have hne : magNum fmt b ≠ 0 := fun h => by simp [h] at hb
    omega
  have hratio : ((magNum fmt a * magDen fmt b : Nat) : ℚ) / (magDen fmt a * magNum fmt b : Nat) =
      magValue fmt a / magValue fmt b := by
    rw [← magNum_div_magDen, ← magNum_div_magDen, div_div_div_eq]
    push_cast
    rfl
  rw [← hratio] at hsmall ⊢
  exact roundRatio_nearestEven (Nat.mul_pos (magDen_pos fmt a) hnum) hsmall

theorem divMag_zero_left (fmt : FloatFmt) (b : Nat) : divMag fmt 0 b = 0 := by
  cases fmt <;> simp [divMag, magNum, roundRatio_zero]

/-! ### Small integers are floats -/

/-- An integer of no more bits than the significand has is a float: shifted up to that many bits, it
is a significand of the binade in which its own last bit has the value 1. -/
theorem exists_magValue_eq_natCast {fmt : FloatFmt} {n : Nat} (hn : n ≠ 0)
    (hbits : n < 2 ^ (fracBits fmt + 1)) :
    ∃ mag, mag < infinityMag fmt ∧ magValue fmt mag = n := by
  have hlow := Nat.log2_self_le hn
  have hhigh : n < 2 ^ (n.log2 + 1) := Nat.lt_log2_self
  have hlog : n.log2 ≤ fracBits fmt := Nat.lt_succ_iff.mp ((Nat.log2_lt hn).mpr hbits)
  obtain ⟨j, hj⟩ := Nat.exists_eq_add_of_le hlog
  have hnormal : 2 ^ fracBits fmt ≤ n * 2 ^ j := by
    rw [hj, pow_add]
    exact Nat.mul_le_mul_right _ hlow
  have hcarry : n * 2 ^ j ≤ 2 * 2 ^ fracBits fmt := by
    rw [hj, pow_add, ← mul_assoc, ← pow_succ']
    exact Nat.mul_le_mul_right _ hhigh.le
  have hbias : fracBits fmt + 1 ≤ floatBias fmt := by cases fmt <;> decide
  refine ⟨(floatBias fmt - 1 + n.log2) * 2 ^ fracBits fmt + n * 2 ^ j, ?_, ?_⟩
  · calc (floatBias fmt - 1 + n.log2) * 2 ^ fracBits fmt + n * 2 ^ j
        ≤ (floatBias fmt - 1 + n.log2 + 2) * 2 ^ fracBits fmt := by rw [add_mul _ 2]; omega
      _ < infinityMag fmt := by
        rw [infinityMag_eq]
        exact Nat.mul_lt_mul_of_pos_right (by omega) (by positivity)
  · have hulp : ulp fmt (floatBias fmt - 1 + n.log2) = (2 ^ j : ℚ)⁻¹ := by
      rw [ulp, ← zpow_natCast, ← zpow_neg]
      congr 1
      omega
    rw [magValue_eq_mul_ulp hcarry (.inr hnormal), hulp]
    push_cast
    exact mul_inv_cancel_right₀ (by positivity) _

theorem magValue_intMag {fmt : FloatFmt} {n : Nat} (hn : n ≠ 0) (hsmall : n < 2 ^ 24) :
    magValue fmt (intMag fmt n) = n := by
  have hbits : n < 2 ^ (fracBits fmt + 1) :=
    hsmall.trans_le (Nat.pow_le_pow_right two_pos (by cases fmt <;> decide))
  obtain ⟨mag, hfinite, hvalue⟩ := exists_magValue_eq_natCast hn hbits
  have hnearest := intMag_nearestEven fmt (show n < 2 ^ 32 by omega)
  rw [← hvalue] at hnearest ⊢
  exact magValue_eq_of_nearestEven hnearest hfinite

/-! ### The packed result -/

theorem packFloat_floatIs {fmt : FloatFmt} {mag : Nat} (neg : Bool) (h : mag < infinityMag fmt) :
    floatIs fmt (packFloat fmt neg mag) neg mag := by
  cases fmt with
  | binary32 =>
    have hmag : mag < 0x7F800000 := h
    refine ⟨_, rfl, ?_⟩
    rw [BitVec.toNat_ofNat, add_comm]
    exact Nat.mod_eq_of_lt (by split <;> omega)
  | binary64 =>
    have hmag : mag < 0x7FF0000000000000 := h
    refine ⟨_, rfl, ?_⟩
    rw [BitVec.toNat_ofNat, add_comm]
    exact Nat.mod_eq_of_lt (by split <;> omega)

/-- Settles O48: each rounding is of a quotient far below the overflow of the format, and the scale
is rounded to itself. -/
theorem floatCommandRoundsTwice : Obligations.FloatCommandRoundsTwice := by
  refine ⟨⟨rfl, rfl, rfl, rfl⟩, fun i s x scale hrun hoperands => ?_⟩
  obtain ⟨hx, hscale, hscale'⟩ := floatOperands_bounds hoperands
  have ha := intMag_nearestEven s.params.floatFmt hx
  have hb := intMag_nearestEven s.params.floatFmt (show scale < 2 ^ 32 by omega)
  have hbvalue : magValue s.params.floatFmt (intMag s.params.floatFmt scale) = scale :=
    magValue_intMag hscale.ne' (by omega)
  have hsmall : magValue s.params.floatFmt (intMag s.params.floatFmt x.natAbs) /
      magValue s.params.floatFmt (intMag s.params.floatFmt scale) <
        2 ^ floatBias s.params.floatFmt := by
    have hdouble := magValue_le_two_mul (Nat.cast_nonneg _) ha
    have hx' : (x.natAbs : ℚ) < 2 ^ 32 := by exact_mod_cast hx
    have hone : (1 : ℚ) ≤ scale := by exact_mod_cast hscale
    rw [hbvalue]
    linarith [div_le_self (magValue_nonneg s.params.floatFmt (intMag s.params.floatFmt x.natAbs))
      hone, two_pow_lt_floatRange s.params.floatFmt]
  have hq := divMag_nearestEven (by rw [hbvalue]; exact_mod_cast hscale) hsmall
  refine ⟨_, _, _, _, floatCommandResult i s x scale hrun hoperands, ha, hb, hbvalue, hq,
    packFloat_floatIs _ hq.1, fun hzero => ?_⟩
  rw [hzero]
  exact divMag_zero_left _ _

end Sys2Proof.Machine
end

section
/-! PROOFS. Which opcodes are no command's, and the fault of a command that presents one
(spec/30_encoding.md rules R81 and R82, spec/60_exceptions.md rule R252). -/

namespace Sys2Proof.Machine

open Sys2Proof.Claims

/-! ### The opcodes of the command map -/

/-- Every row of the command map pairs a command with its own opcode. -/
theorem opcode_of_mem_opcodeMap : ∀ row ∈ opcodeMap, opcode row.2 = row.1 := by decide

theorem decodeOpcode_opcode (i : Instr) : decodeOpcode (opcode i) = some i := by
  cases i <;> rfl

theorem decodeOpcode_eq_some_iff {op : Byte} {i : Instr} :
    decodeOpcode op = some i ↔ opcode i = op := by
  constructor
  · intro h
    obtain ⟨row, hfind, rfl⟩ := Option.map_eq_some_iff.mp h
    have hop : row.1 = op := by simpa using List.find?_some hfind
    exact (opcode_of_mem_opcodeMap row (List.mem_of_find?_eq_some hfind)).trans hop
  · rintro rfl
    exact decodeOpcode_opcode i

theorem decodeOpcode_eq_none_iff {op : Byte} :
    decodeOpcode op = none ↔ ¬ ∃ i, opcode i = op := by
  simp [Option.eq_none_iff_forall_ne_some, decodeOpcode_eq_some_iff]

/-- The ranges of R82 are the gaps between the rows of the command map. -/
theorem isReserved_iff_decodeOpcode_eq_none (op : Byte) :
    isReserved op.toNat ↔ decodeOpcode op = none := by
  have hlt := op.isLt
  have hrows : decodeOpcode op = none ↔ ∀ row ∈ opcodeMap, row.1.toNat ≠ op.toNat := by
    simp [decodeOpcode, BitVec.toNat_inj]
  rw [hrows]
  simp [opcodeMap, isReserved]
  omega

/-! ### Decoding and running an illegal opcode -/

theorem decodeCmd_of_isReserved {op : Byte} (h : isReserved op.toNat) (v : PressVariants) :
    decodeCmd v op = .error (.reserved op) := by
  simp [decodeCmd, (isReserved_iff_decodeOpcode_eq_none op).mp h]

/-- The opcode of a path left out decodes to no command, and names the one it would be. -/
theorem decodeCmd_of_isLeftOut {v : PressVariants} {op : Byte} (h : isLeftOut v op.toNat) :
    ∃ i, decodeCmd v op = .error (.notBuilt i) := by
  have hout : ∃ i, op = opcode i ∧ leftOut v i := by
    obtain ⟨hop, hv⟩ | ⟨hop, hv⟩ := h
    · exact ⟨.compP32, BitVec.eq_of_toNat_eq hop, .inl ⟨rfl, hv⟩⟩
    · exact ⟨.compP64, BitVec.eq_of_toNat_eq hop, .inr ⟨rfl, hv⟩⟩
  obtain ⟨i, rfl, hleft⟩ := hout
  obtain ⟨-, hdec⟩ := encoding_statement i
  have hbuilt := (wellFormed_eq_false_iff_leftOut v i).mpr hleft
  exact ⟨i, by simp [hdec, hbuilt]⟩

theorem runSampled_of_decodeCmd_error {meaning : Instr → State → Result} {s : State}
    {e : DecodeError} (hrun : s.fault = none)
    (hcmd : decodeCmd s.params.press s.ports.cmd = .error e) :
    runSampled meaning s = .next (s.takeFault .illegalCmd) := by
  simp only [runSampled, hcmd]
  exact accept_of_running hrun _

/-- Settles O3: the decoder names an error for both kinds of opcode, and a sampled command with a
decoding error faults. -/
theorem reservedOpcodeFaults : Obligations.ReservedOpcodeFaults := by
  refine ⟨fun op => (isReserved_iff_decodeOpcode_eq_none op).trans decodeOpcode_eq_none_iff,
    fun s p rest hhost hrun hillegal => ?_⟩
  have herror : ∃ e, decodeCmd s.params.press p.cmd = .error e := by
    obtain hreserved | hleft := hillegal
    · exact ⟨_, decodeCmd_of_isReserved hreserved _⟩
    · obtain ⟨i, hdec⟩ := decodeCmd_of_isLeftOut hleft
      exact ⟨_, hdec⟩
  obtain ⟨e, hdec⟩ := herror
  calc step s = runSampled exec (s.sample p rest) := step_of_command hhost
    _ = .next ((s.sample p rest).takeFault .illegalCmd) := runSampled_of_decodeCmd_error hrun hdec

end Sys2Proof.Machine
end

section
/-! PROOFS. A fault is precise, and only reset leads out of it (spec/60_exceptions.md rules R253 and
R256). -/

namespace Sys2Proof.Machine

/-- A command that ends with FAULT set took that fault and did nothing else: it was accepted with
FAULT NONE, which both completions keep. -/
theorem exec_eq_takeFault {i : Instr} {s t : State} {k : FaultKind} (h : exec i s = .next t)
    (hfault : t.fault = some k) : t = s.takeFault k := by
  obtain ⟨hrun, ⟨k', rfl⟩ | rfl | ⟨u, l, hw, rfl⟩⟩ := exec_ends h
  · cases hfault
    rfl
  · simp [hrun] at hfault
  · obtain ⟨hkept, -⟩ := hw.frame
    simp [hkept, hrun] at hfault

theorem runSampled_eq_takeFault {s t : State} {k : FaultKind}
    (h : runSampled exec s = .next t) (hfault : t.fault = some k) : t = s.takeFault k := by
  obtain ⟨i, -, hexec⟩ | ⟨e, -, -, rfl⟩ := runSampled_next h
  · exact exec_eq_takeFault hexec hfault
  · cases hfault
    rfl

/-- Settles O8: the step took the fault on the sampled state; FAULT then stops commands and runs,
and a reset clears it. -/
theorem faultIsPrecise : Obligations.FaultIsPrecise := by
  intro s t k p rest hhost hstep hfault
  rw [step_of_command hhost] at hstep
  refine ⟨runSampled_eq_takeFault hstep hfault, fun p' rest' => ?_, runCommands_halted hfault,
    fun rest' => ⟨_, step_of_reset rfl, rfl⟩⟩
  calc step { t with host := .command p' :: rest' }
      = runSampled exec (t.sample p' rest') := step_of_command rfl
    _ = .fault (.halted k) := runSampled_halted hfault

end Sys2Proof.Machine
end

section
/-! PROOFS. What reset clears and commands do not, the write-back after an update, and what a boot
leaves (spec/70_reset_and_hazards.md rules R280, R283, R291 and R293). -/

namespace Sys2Proof.Machine

open Sys2Proof.Claims

/-! ### The valid flags -/

/-- The register writes of LOAD_CAL and COMP_T set a valid flag and clear none. -/
theorem Written.keeps_valid {i : Instr} {s u : State} (hw : Written i s u) :
    (s.calValid = true → u.calValid = true) ∧ (s.tfineValid = true → u.tfineValid = true) := by
  cases hw with
  | nothing => exact ⟨id, id⟩
  | cal => exact ⟨fun _ => rfl, id⟩
  | tfine => exact ⟨id, fun _ => rfl⟩

/-- No command clears CAL_VALID or TFINE_VALID, whichever way it ends. -/
theorem exec_keeps_valid {i : Instr} {s t : State} (h : exec i s = .next t) :
    (s.calValid = true → t.calValid = true) ∧ (s.tfineValid = true → t.tfineValid = true) := by
  obtain ⟨-, ⟨k, rfl⟩ | rfl | ⟨u, l, hw, rfl⟩⟩ := exec_ends h
  · exact ⟨id, id⟩
  · exact ⟨id, id⟩
  · exact hw.keeps_valid

/-- Settles O6: a presented command is one of exec, which clears no flag, or an illegal opcode, whose
fault writes neither; both need FAULT NONE. -/
theorem resetEventClearsEverything : Obligations.ResetEventClearsEverything := by
  refine ⟨fun s rest hhost =>
    ⟨_, step_of_reset hhost, rfl, rfl, rfl, rfl, rfl, rfl, rfl, rfl, rfl⟩,
    fun s t p rest hhost hstep => ?_⟩
  rw [step_of_command hhost] at hstep
  obtain ⟨i, -, hexec⟩ | ⟨e, -, hrun, rfl⟩ := runSampled_next hstep
  · obtain ⟨hcal, htfine⟩ := exec_keeps_valid hexec
    obtain ⟨hrun, -⟩ := exec_ends hexec
    exact ⟨hcal, htfine, hrun⟩
  · exact ⟨id, id, hrun⟩

/-! ### Write-back after an update -/

/-- After a completion with OK that leaves a byte and a verdict, the host follows the verdict. -/
theorem writeBack_okEnd (a : RegAddr) (s : State) (b : Byte) (needed : Bool) :
    writeBack a (okEnd s { Latches.bottom with yb0 := some b, yw := some needed }) =
      if needed then [(a, b)] else [] := by
  cases needed <;> rfl

/-- Settles O29: an update that completed with OK had a legal code, and for a legal code YW says
whether the new byte differs from IR. -/
theorem writeBackOnlyWhenChanged : Obligations.WriteBackOnlyWhenChanged := by
  intro i hi lo legal s t a hupd hexec hok
  obtain ⟨hrun, -⟩ := exec_next hexec
  obtain ⟨hlegal, -⟩ | rfl := exec_update_next hupd hexec
  · cases hexec.symm.trans (exec_update_of_legal hupd hrun hlegal)
    refine ⟨_, rfl, ?_⟩
    rw [writeBack_okEnd]
    simp only [← writeNeeded_eq_false_iff hupd hlegal]
    cases writeNeeded hi lo s.ports.ir s.ports.iv <;> rfl
  · cases hok

/-! ### A boot -/

/-- A presented command that is built in steps as its meaning on the sampled ports. -/
theorem step_present {i : Instr} {s : State} (hbuilt : i.wellFormed s.params.press = true)
    {operands : Ports} {rest : List HostEvent} (hhost : s.host = present i operands :: rest) :
    step s = exec i (s.sample { operands with cmd := opcode i } rest) := by
  have hsampled : decodeCmd (s.sample { operands with cmd := opcode i } rest).params.press
      (s.sample { operands with cmd := opcode i } rest).ports.cmd = .ok i := decodeCmd_opcode hbuilt
  calc step s = runSampled exec (s.sample { operands with cmd := opcode i } rest) :=
        step_of_command hhost
    _ = _ := runSampled_of_decodeCmd_ok hsampled

/-- A reset is one step, from every state. -/
theorem run_reset (s : State) :
    Host.Core.run core 1 { s with host := [.reset] } = .next (s.assertReset []) :=
  core_run_succ (step_of_reset (s := { s with host := [.reset] }) rfl) 0

/-- A reset leaves CAL unset, so a LOAD_CAL presented after it loads CAL, from every state. -/
theorem run_reset_loadCal (s : State) (operands : Ports) :
    Host.Core.run core 2 { s with host := [.reset, present .loadCal operands] } =
      .next (((s.assertReset []).sample { operands with cmd := opcode .loadCal } []).writeCal
        (parseCal s.params operands.ib operands.ic) |>.completeOk Latches.bottom) := by
  have hload : step (s.assertReset [present .loadCal operands]) = _ :=
    (step_present (i := .loadCal) rfl rfl).trans (exec_loadCal_of_unset rfl rfl)
  exact (core_run_succ (step_of_reset (s := { s with host := [.reset, _] }) rfl) 1).trans
    (core_run_succ hload 0)

section
variable {img : Image} {ib : Vector Byte 26} {ic : Vector Byte 7}

theorem burstPort_calBlockA_iff :
    burstPort img calBlockA 26 = some ib ↔ registersHold img 0x88 ib :=
  burstPort_eq_some_iff_registersHold (by decide)

theorem burstPort_calBlockB_iff :
    burstPort img calBlockB 7 = some ic ↔ registersHold img 0xE1 ic :=
  burstPort_eq_some_iff_registersHold (by decide)

/-- On the expected chip ID, and when both blocks are read, a boot is a reset and a LOAD_CAL. -/
theorem boot_of_registersHold (hid : readReg img 0xD0 = some 0x60)
    (hib : registersHold img 0x88 ib) (hic : registersHold img 0xE1 ic) (operands : Ports) :
    boot operands img =
      ⟨[.reset, present .loadCal { operands with ib := ib, ic := ic }], none⟩ := by
  have hchip : readReg img chipIdReg = some chipId := hid
  simp [boot, hchip, burstPort_calBlockA_iff.mpr hib, burstPort_calBlockB_iff.mpr hic]

theorem calBlocks_unique {ib' : Vector Byte 26} {ic' : Vector Byte 7}
    (hib : registersHold img 0x88 ib) (hib' : registersHold img 0x88 ib')
    (hic : registersHold img 0xE1 ic) (hic' : registersHold img 0xE1 ic') :
    ib = ib' ∧ ic = ic' := by
  rw [← burstPort_calBlockA_iff] at hib hib'
  rw [← burstPort_calBlockB_iff] at hic hic'
  exact ⟨Option.some.inj (hib.symm.trans hib'), Option.some.inj (hic.symm.trans hic')⟩

end

/-- The sensor answers the expected chip ID and both calibration blocks (R52, R54, R55). -/
def CalibrationReadable (img : Image) : Prop :=
  readReg img 0xD0 = some 0x60 ∧ (∃ ib : Vector Byte 26, registersHold img 0x88 ib) ∧
    ∃ ic : Vector Byte 7, registersHold img 0xE1 ic

/-- Otherwise a boot is the reset alone with a failure, IdError on another chip ID. -/
theorem boot_of_not_calibrationReadable {img : Image} (h : ¬ CalibrationReadable img)
    (operands : Ports) :
    ∃ e, boot operands img = bootFails e ∧
      ∀ id, readReg img 0xD0 = some id → id ≠ 0x60 → e = .idError := by
  obtain ⟨e, hboot, he⟩ | ⟨hid, ib, ic, hib, hic, -⟩ := boot_cases operands img
  · exact ⟨e, hboot, fun id hid hne => he.mpr ⟨id, hid, hne⟩⟩
  · have hread : CalibrationReadable img :=
      ⟨hid, ⟨ib, burstPort_calBlockA_iff.mp hib⟩, ic, burstPort_calBlockB_iff.mp hic⟩
    exact absurd hread h

/-- Settles O52: a boot presents a reset and a LOAD_CAL, or a reset alone. -/
theorem bootLoadsCalibrationOrLeavesReset : Obligations.BootLoadsCalibrationOrLeavesReset := by
  intro operands img s
  by_cases hread : CalibrationReadable img
  · obtain ⟨hid, ⟨ib, hib⟩, ic, hic⟩ := hread
    rw [bootEvents, boot_of_registersHold hid hib hic operands]
    refine ⟨_, run_reset_loadCal s _, rfl, rfl, rfl, rfl, fun ib' ic' hib' hic' _ => ?_,
      absurd ⟨hid, ⟨ib, hib⟩, ic, hic⟩, fun other hother hne => ?_⟩
    · obtain ⟨rfl, rfl⟩ := calBlocks_unique hib hib' hic hic'
      exact ⟨rfl, rfl, rfl, _, rfl, parsed_parseCal ..⟩
    · exact absurd (Option.some.inj (hother.symm.trans hid)) hne
  · obtain ⟨e, hboot, he⟩ := boot_of_not_calibrationReadable hread operands
    rw [bootEvents, hboot]
    exact ⟨_, run_reset s, rfl, rfl, rfl, rfl,
      fun ib ic hib hic hid => absurd ⟨hid, ⟨ib, hib⟩, ic, hic⟩ hread,
      fun _ => ⟨rfl, rfl, rfl, rfl⟩, fun other hother hne => congrArg some (he other hother hne)⟩

end Sys2Proof.Machine
end
